-- ==== Sys2Proof/Word.lean ====
section
/-! DEFINITION. The word types of the block (00_scope R13, R14) and its per-zone arrays: eight zones, numbered 1 to 8. -/

namespace Sys2Proof

/-- A byte on the bus (R13). -/
abbrev Byte := BitVec 8

/-- A `u32`: the millisecond time base, a timestamp or a counter (R13, R20, R29). -/
abbrev Word := BitVec 32

/-- A `u16`, or an `s16` in two's complement (R14). -/
abbrev Half := BitVec 16

/-- A zone that exists: the numbers 1 to 8 (R13). A number is turned into a zone in one place only, `Zone.ofNat?` (R84). -/
inductive Zone where
  | z1 | z2 | z3 | z4 | z5 | z6 | z7 | z8
deriving DecidableEq, Repr

/-- The zones in rising order. -/
def Zone.all : List Zone := [.z1, .z2, .z3, .z4, .z5, .z6, .z7, .z8]

/-- The number of a zone, 1 to 8 (R13). -/
def Zone.number : Zone → Nat
  | .z1 => 1
  | .z2 => 2
  | .z3 => 3
  | .z4 => 4
  | .z5 => 5
  | .z6 => 6
  | .z7 => 7
  | .z8 => 8

/-- The zone of a number; none outside 1..8 (R84). -/
def Zone.ofNat? : Nat → Option Zone
  | 1 => some .z1
  | 2 => some .z2
  | 3 => some .z3
  | 4 => some .z4
  | 5 => some .z5
  | 6 => some .z6
  | 7 => some .z7
  | 8 => some .z8
  | _ => none

/-- An array with one element for each zone (R84: every per-zone array is indexed 1..8). -/
structure Zones (α : Type) where
  z1 : α
  z2 : α
  z3 : α
  z4 : α
  z5 : α
  z6 : α
  z7 : α
  z8 : α
deriving DecidableEq, Repr

/-- Every element `x`. -/
def Zones.const {α : Type} (x : α) : Zones α := ⟨x, x, x, x, x, x, x, x⟩

/-- The element of zone `z`. -/
def Zones.get {α : Type} (v : Zones α) : Zone → α
  | .z1 => v.z1
  | .z2 => v.z2
  | .z3 => v.z3
  | .z4 => v.z4
  | .z5 => v.z5
  | .z6 => v.z6
  | .z7 => v.z7
  | .z8 => v.z8

/-- The array with the element of zone `z` replaced. -/
def Zones.set {α : Type} (v : Zones α) (z : Zone) (x : α) : Zones α :=
  match z with
  | .z1 => { v with z1 := x }
  | .z2 => { v with z2 := x }
  | .z3 => { v with z3 := x }
  | .z4 => { v with z4 := x }
  | .z5 => { v with z5 := x }
  | .z6 => { v with z6 := x }
  | .z7 => { v with z7 := x }
  | .z8 => { v with z8 := x }

end Sys2Proof
end

