-- ==== Sys2Proof/Config.lean ====
section
/-! DEFINITION. The constants and the OPEN parameters of the block (00_scope R3 to R13). The constants are numbers of the
spec. The parameters are plain data: a machine state carries one `Params`, no step changes it, and every statement about all
states is a statement about all parameter values. -/

namespace Sys2Proof

/-- `T_SIL`, ms: the silence that ends a frame (R4). -/
abbrev Config.tSil : Nat := 5
/-- `T_QMIN`, ms: the quiet window opens (R6). -/
abbrev Config.tQMin : Nat := 500
/-- `T_QMAX`, ms: the quiet window closes (R6). -/
abbrev Config.tQMax : Nat := 1000
/-- `T_SPACE`, ms: the spacing of transmit attempts (R6). -/
abbrev Config.tSpace : Nat := 900
/-- `T_DEB`, ms: the debounce after a send (R7). -/
abbrev Config.tDeb : Nat := 3000
/-- `T_LIVE`, ms: the liveness interval (R8). -/
abbrev Config.tLive : Nat := 3000
/-- The size of the transmit buffer in bytes (R23, R34). -/
abbrev Config.txCap : Nat := 32

/-- The type a broadcast rule gives a frame (R10). -/
inductive BcastType where
  | stateMessage
  | stateMessage2
  | broadcast (k : Nat)
deriving DecidableEq, Repr

/-- One rule of `P_BCAST_RULES`: (mask, value, type, length) (R10). -/
structure BcastRule where
  mask : Byte
  value : Byte
  type : BcastType
  length : Nat
deriving DecidableEq, Repr

/-- A rule matches a tag: `(b[0] & mask) == value` (R80). -/
def BcastRule.hits (r : BcastRule) (tag : Byte) : Bool := tag &&& r.mask == r.value

/-- The lengths R10 gives the types: 23, 18, and 18 to 32 for the other broadcasts. -/
def BcastRule.valid (r : BcastRule) : Bool :=
  match r.type with
  | .stateMessage => r.length == 23
  | .stateMessage2 => r.length == 18
  | .broadcast _ => decide (18 ≤ r.length) && decide (r.length ≤ 32)

/-- What a StateMessage or StateMessage2 says, each field optional (R11). -/
structure StateFields where
  zoneSetpoint : Zones (Option Byte)
  zoneOnBitmap : Option Byte
  averageTemperature : Option Half
  masterSetpoint : Option Byte
  operatingMode : Option Byte
  lastOperatingMode : Option Byte
  compressorMode : Option Bool
  compressorActive : Option Bool
  fanSpeed : Option (BitVec 2)
  continuousFan : Option Bool
  fanActive : Option Bool
deriving DecidableEq, Repr

/-- Every field absent (R121). -/
def StateFields.absent : StateFields :=
  { zoneSetpoint := Zones.const none, zoneOnBitmap := none, averageTemperature := none, masterSetpoint := none,
    operatingMode := none, lastOperatingMode := none, compressorMode := none, compressorActive := none,
    fanSpeed := none, continuousFan := none, fanActive := none }

/-- One entry of the graph of `P_STATE_DECODE`: the fields it gives for these bytes of this type (R11). -/
structure DecodeRow where
  type : BcastType
  bytes : List Byte
  fields : StateFields
deriving DecidableEq, Repr

/-- The parameters of one implementation (R3, R5, R9, R10, R11, R12). `P_STATE_DECODE` is a function on a finite domain (23 or
18 bytes), given by its graph; bytes the graph does not list decode to no field at all (assumption 2). -/
structure Params where
  frameCap : Nat
  tEcho : Nat
  hasDe : Bool
  bcastRules : List BcastRule
  finalType : Option BcastType
  stateDecode : List DecodeRow
deriving DecidableEq, Repr

/-- The ranges the spec gives the parameters (R3, R5, R10, R12). Any mask and value is in range, one that hits 0x3E too (assumption
25). -/
def Params.valid (p : Params) : Bool :=
  decide (64 ≤ p.frameCap) && decide (p.frameCap ≤ 256) && decide (50 ≤ p.tEcho) && decide (p.tEcho ≤ 100)
    && p.bcastRules.all BcastRule.valid
    && (match p.finalType with
        | none => true
        | some t => p.bcastRules.any (fun r => r.type == t))

/-- The reference values of the spec's test vectors (95_test_vectors): capacity 64, echo window 50 ms, write-enable present,
no broadcast rule, no final type. They stand in `State.reset` only (assumption 1). -/
def Params.reference : Params :=
  { frameCap := 64, tEcho := 50, hasDe := true, bcastRules := [], finalType := none, stateDecode := [] }

end Sys2Proof
end

