-- ==== Sys2Proof/Syntax.lean ====
section
/-! DEFINITION. The instructions of the block: the frame types and the host operations of spec/opcode_table.json, one
constructor each (30_encoding R45, R59), and the field records they carry (10_state R26). -/

namespace Sys2Proof

/-- The wire fields of a ZoneWallController frame but for the zone (R26, R51). -/
structure WallBits where
  sp : Byte
  on : Bool
  opn : Bool
  config : Bool
  init : Bool
  unk : BitVec 2
  low10 : BitVec 10
deriving DecidableEq, Repr

/-- `WallFields` (R26): the wire fields, the zone, and `csumOk`, which is computed on receive. -/
structure WallFields extends WallBits where
  zone : BitVec 4
  csumOk : Bool
deriving DecidableEq, Repr

/-- The wire fields of a ZoneMasterController frame but for the zone (R26, R54). -/
structure MtzBits where
  temp9 : BitVec 9
  compMode : Bool
  zoneOn : Bool
  transient : Bool
  unkA : Bool
  damper : BitVec 3
  heating : Bool
  unkB : Bool
  min : BitVec 6
  fanOnly : Bool
  unkC : Bool
  sp : BitVec 6
  compActive : Bool
  unkD : Bool
  max : BitVec 6
deriving DecidableEq, Repr

/-- `MtzFields` (R26): the wire fields, the zone, and `csumOk`, which is computed on receive and 1 in a host's record. -/
structure MtzFields extends MtzBits where
  zone : BitVec 4
  csumOk : Bool
deriving DecidableEq, Repr

/-- The value of `customSpSlot`: (zone u4, setpoint u8) (R24). -/
structure CustomSp where
  zone : BitVec 4
  sp : Byte
deriving DecidableEq, Repr

/-- Why a frame is Unknown: no rule matches its tag, or the tag matches and the length does not (R57, R83, R104). -/
inductive DropCause where
  | unknownTag
  | lengthMismatch
deriving DecidableEq, Repr

/-- A completed peer frame as the classifier reads it: the frame rows of the opcode table. -/
inductive Frame where
  | masterSetpoint (sp : Byte)
  | fanMode (v : Byte)
  | operatingMode (mode : Byte)
  | zoneState (bitmap : Byte)
  | customZoneSetpoint (zone sp : Byte)
  | stateMessage (bytes : List Byte)
  | stateMessage2 (bytes : List Byte)
  | broadcast (k : Nat) (bytes : List Byte)
  | zoneWallController (zone : BitVec 4) (f : WallBits) (csum : Byte)
  | zoneMasterController (zone : BitVec 4) (f : MtzBits) (csum : Byte)
  | unknown (cause : DropCause) (bytes : List Byte)
deriving DecidableEq, Repr

/-- The instructions: one constructor per row of spec/opcode_table.json. The first eleven are received frames, the others host
operations. Temperatures `d` are `s16` deci-degrees. -/
inductive Instr where
  | masterSetpoint (sp : Byte)
  | fanMode (v : Byte)
  | operatingMode (mode : Byte)
  | zoneState (bitmap : Byte)
  | customZoneSetpoint (zone sp : Byte)
  | stateMessage (bytes : List Byte)
  | stateMessage2 (bytes : List Byte)
  | broadcast (k : Nat) (bytes : List Byte)
  | zoneWallController (zone : BitVec 4) (f : WallBits) (csum : Byte)
  | zoneMasterController (zone : BitVec 4) (f : MtzBits) (csum : Byte)
  | unknown (cause : DropCause) (bytes : List Byte)
  | setSystemOn (on : Bool)
  | setOperatingMode (mode : Byte)
  | setFanSpeed (speed : Byte)
  | setFanSpeedAbsolute (speed cont : Byte)
  | setContinuousFanMode (cont : Byte)
  | setMasterSetpoint (d : Half)
  | setZoneOn (zone : Byte) (on : Bool)
  | setZoneSetpointTemperature (zone : Byte) (d : Half) (adjustMaster : Bool)
  | setZoneCurrentTemperature (zone : Byte) (d : Half)
  | setControlZone (zone : Byte) (en : Bool)
  | sendZoneMasterOverride (zone : Byte) (f : MtzBits)
  | clearStatus (mask : Half)
  | writeConfig (v : Byte)
  | processMessage (n : BitVec 9) (bytes : List Byte)
  | readReg (n : Byte)
  | getOperatingMode
  | getFanMode
  | getMaster
  | getZone (zone : Byte)
  | getCompressor
  | receivingData
  | pendingCount
  | unassignedSelector (sel : Byte) (args : List Byte)
deriving DecidableEq, Repr

/-- The frame as an instruction. -/
def Frame.toInstr : Frame → Instr
  | .masterSetpoint sp => .masterSetpoint sp
  | .fanMode v => .fanMode v
  | .operatingMode mode => .operatingMode mode
  | .zoneState bitmap => .zoneState bitmap
  | .customZoneSetpoint zone sp => .customZoneSetpoint zone sp
  | .stateMessage bytes => .stateMessage bytes
  | .stateMessage2 bytes => .stateMessage2 bytes
  | .broadcast k bytes => .broadcast k bytes
  | .zoneWallController zone f csum => .zoneWallController zone f csum
  | .zoneMasterController zone f csum => .zoneMasterController zone f csum
  | .unknown cause bytes => .unknown cause bytes

/-- Where an instruction enters the block: as a frame on the bus, or at the host port (R17). -/
inductive Port where
  | bus
  | host
deriving DecidableEq, Repr

/-- The port of an instruction. -/
def Instr.port : Instr → Port
  | .masterSetpoint _ | .fanMode _ | .operatingMode _ | .zoneState _ | .customZoneSetpoint _ _ => .bus
  | .stateMessage _ | .stateMessage2 _ | .broadcast _ _ => .bus
  | .zoneWallController _ _ _ | .zoneMasterController _ _ _ | .unknown _ _ => .bus
  | .setSystemOn _ | .setOperatingMode _ | .setFanSpeed _ | .setFanSpeedAbsolute _ _ => .host
  | .setContinuousFanMode _ | .setMasterSetpoint _ | .setZoneOn _ _ | .setZoneSetpointTemperature _ _ _ => .host
  | .setZoneCurrentTemperature _ _ | .setControlZone _ _ | .sendZoneMasterOverride _ _ => .host
  | .clearStatus _ | .writeConfig _ | .processMessage _ _ | .readReg _ => .host
  | .getOperatingMode | .getFanMode | .getMaster | .getZone _ | .getCompressor => .host
  | .receivingData | .pendingCount | .unassignedSelector _ _ => .host

end Sys2Proof
end

