-- ==== Sys2Proof/WellFormed.lean ====
section
/-! DEFINITION. Which instruction terms stand for something that can reach the block: a frame whose type and length its tag
gives (R45, R80, R83), an Unknown frame that no rule takes (R57, R104), and a host operation with the arguments of R59. -/

namespace Sys2Proof

/-- The five exact command tags (R45). -/
def isCommandTag (tag : Byte) : Bool :=
  tag == 0x3A#8 || tag == 0x3B#8 || tag == 0x3C#8 || tag == 0x3D#8 || tag == 0x3F#8

/-- The broadcast rule that takes a tag: the first that matches, unless a command has the tag (R46, R80). -/
def bcastRuleOf (rules : List BcastRule) (tag : Byte) : Option BcastRule :=
  if isCommandTag tag then none else rules.find? (fun r => r.hits tag)

/-- The length the tag's type requires, or none for an unmatched tag (R45, R46). -/
def lengthOfTag (rules : List BcastRule) (tag : Byte) : Option Nat :=
  if tag == 0x3F#8 then some 3
  else if isCommandTag tag then some 2
  else
    match bcastRuleOf rules tag with
    | some r => some r.length
    | none =>
      if tag.extractLsb' 4 4 == 0xC#4 then some 5
      else if tag.extractLsb' 4 4 == 0x8#4 then some 7
      else none

/-- The bytes are a broadcast of type `t`: a rule of that type takes the tag and gives this length. -/
def isBcast (rules : List BcastRule) (t : BcastType) (bytes : List Byte) : Bool :=
  match bytes with
  | [] => false
  | tag :: _ =>
    match bcastRuleOf rules tag with
    | none => false
    | some r => r.type == t && r.length == bytes.length

/-- The bytes are a frame the classifier does not take, for this cause (R57). -/
def isDropped (rules : List BcastRule) (cap : Nat) (cause : DropCause) (bytes : List Byte) : Bool :=
  match bytes with
  | [] => false
  | tag :: _ =>
    decide (bytes.length ≤ cap) &&
      match lengthOfTag rules tag, cause with
      | none, .unknownTag => true
      | some l, .lengthMismatch => l != bytes.length
      | _, _ => false

/-- A selector of R59 with the argument bytes it takes (their layout: assumption 5). -/
def selectorTakes (sel : Byte) (args : List Byte) : Bool :=
  if sel = 0x01#8 then args.length == 1
  else if sel = 0x02#8 then args.length == 1
  else if sel = 0x03#8 then args.length == 1
  else if sel = 0x04#8 then args.length == 2
  else if sel = 0x05#8 then args.length == 1
  else if sel = 0x06#8 then args.length == 2
  else if sel = 0x07#8 then args.length == 2
  else if sel = 0x08#8 then args.length == 4
  else if sel = 0x09#8 then args.length == 3
  else if sel = 0x0A#8 then args.length == 2
  else if sel = 0x0B#8 then args.length == 6
  else if sel = 0x0C#8 then args.length == 2
  else if sel = 0x0D#8 then args.length == 1
  else if sel = 0x0E#8 then
    match args with
    | [] => false
    | n :: bytes => decide (bytes.length ≤ 256 ∧ bytes.length % 256 = n.toNat)
  else if sel = 0x10#8 then args.length == 1
  else if sel = 0x11#8 then args.length == 0
  else if sel = 0x12#8 then args.length == 0
  else if sel = 0x13#8 then args.length == 0
  else if sel = 0x14#8 then args.length == 1
  else if sel = 0x15#8 then args.length == 0
  else if sel = 0x16#8 then args.length == 0
  else if sel = 0x17#8 then args.length == 0
  else false

/-- Well-formed under the broadcast rules and the buffer capacity of an implementation. -/
def WellFormed (rules : List BcastRule) (cap : Nat) : Instr → Bool
  | .masterSetpoint _ => true
  | .fanMode _ => true
  | .operatingMode _ => true
  | .zoneState _ => true
  | .customZoneSetpoint _ _ => true
  | .stateMessage bytes => isBcast rules .stateMessage bytes
  | .stateMessage2 bytes => isBcast rules .stateMessage2 bytes
  | .broadcast k bytes => isBcast rules (.broadcast k) bytes
  | .zoneWallController zone _ _ => (bcastRuleOf rules (0xC#4 ++ zone)).isNone
  | .zoneMasterController zone _ _ => (bcastRuleOf rules (0x8#4 ++ zone)).isNone
  | .unknown cause bytes => isDropped rules cap cause bytes
  | .setSystemOn _ => true
  | .setOperatingMode _ => true
  | .setFanSpeed _ => true
  | .setFanSpeedAbsolute _ _ => true
  | .setContinuousFanMode _ => true
  | .setMasterSetpoint _ => true
  | .setZoneOn _ _ => true
  | .setZoneSetpointTemperature _ _ _ => true
  | .setZoneCurrentTemperature _ _ => true
  | .setControlZone _ _ => true
  | .sendZoneMasterOverride _ _ => true
  | .clearStatus _ => true
  | .writeConfig _ => true
  | .processMessage n bytes => decide (n.toNat ≤ 256) && bytes.length == n.toNat
  | .readReg _ => true
  | .getOperatingMode => true
  | .getFanMode => true
  | .getMaster => true
  | .getZone _ => true
  | .getCompressor => true
  | .receivingData => true
  | .pendingCount => true
  | .unassignedSelector sel args => !selectorTakes sel args

end Sys2Proof
end

