-- ==== Sys2Proof/Decode.lean ====
section
/-! DEFINITION. Decoding and encoding: the classification rules (42_frame_types R80), the field layouts of the frames
(30_encoding R50 to R54), the host selectors (R59), and the reading of a table word. Decoding is total: a frame no rule takes
is the instruction Unknown, with its cause, and a host operation no row takes is the unassigned selector. -/

namespace Sys2Proof

/-! ### The classifier -/

/-- What a classification rule makes of a frame (R80). -/
inductive FrameKind where
  | masterSetpoint
  | fanMode
  | operatingMode
  | zoneState
  | customZoneSetpoint
  | bcast (t : BcastType)
  | zoneWallController
  | zoneMasterController
deriving DecidableEq, Repr

/-- One row of `CLASS_RULES`: (mask, value, type, length) (R80). -/
structure ClassRule where
  mask : Byte
  value : Byte
  kind : FrameKind
  length : Nat
deriving DecidableEq, Repr

/-- The command rows of `CLASS_RULES` (R80). -/
def commandRules : List ClassRule :=
  [⟨0xFF, 0x3A, .masterSetpoint, 2⟩,
   ⟨0xFF, 0x3B, .fanMode, 2⟩,
   ⟨0xFF, 0x3C, .operatingMode, 2⟩,
   ⟨0xFF, 0x3D, .zoneState, 2⟩,
   ⟨0xFF, 0x3F, .customZoneSetpoint, 3⟩]

/-- The zone rows of `CLASS_RULES` (R80). -/
def zoneRules : List ClassRule :=
  [⟨0xF0, 0xC0, .zoneWallController, 5⟩,
   ⟨0xF0, 0x80, .zoneMasterController, 7⟩]

/-- `CLASS_RULES`: the commands, then `P_BCAST_RULES`, then the zone frames (R80). A broadcast rule that hits 0x3E takes that tag; that
such a rule is not barred is the model's choice (assumption 25). -/
def classRules (rules : List BcastRule) : List ClassRule :=
  commandRules ++ rules.map (fun r => ⟨r.mask, r.value, .bcast r.type, r.length⟩) ++ zoneRules

/-- `Classify`: the first rule with `(b[0] & mask) == value`; none is Unknown (R80). -/
def classify (rules : List BcastRule) (tag : Byte) : Option ClassRule :=
  (classRules rules).find? (fun r => tag &&& r.mask == r.value)

/-! ### Field layouts -/

/-- Bits of bytes 1 to 3 of a ZoneWallController frame (R51, R93). -/
def parseWallBits (b1 b2 b3 : Byte) : WallBits :=
  { sp := b1
    on := b2.getLsbD 7
    opn := b2.getLsbD 6
    config := b2.getLsbD 5
    init := b2.getLsbD 4
    unk := b2.extractLsb' 2 2
    low10 := b2.extractLsb' 0 2 ++ b3 }

/-- Bytes 0 to 3 of a ZoneWallController frame (R51, R95). -/
def packWallBits (zone : BitVec 4) (f : WallBits) : List Byte :=
  [0xC#4 ++ zone,
   f.sp,
   BitVec.ofBool f.on ++ BitVec.ofBool f.opn ++ BitVec.ofBool f.config ++ BitVec.ofBool f.init ++ f.unk
     ++ f.low10.extractLsb' 8 2,
   f.low10.extractLsb' 0 8]

/-- Bits of bytes 1 to 5 of a ZoneMasterController frame (R54, R97). -/
def parseMtzBits (b1 b2 b3 b4 b5 : Byte) : MtzBits :=
  { temp9 := b2.extractLsb' 0 1 ++ b1
    compMode := b2.getLsbD 7
    zoneOn := b2.getLsbD 6
    transient := b2.getLsbD 5
    unkA := b2.getLsbD 4
    damper := b2.extractLsb' 1 3
    heating := b3.getLsbD 7
    unkB := b3.getLsbD 6
    min := b3.extractLsb' 0 6
    fanOnly := b4.getLsbD 7
    unkC := b4.getLsbD 6
    sp := b4.extractLsb' 0 6
    compActive := b5.getLsbD 7
    unkD := b5.getLsbD 6
    max := b5.extractLsb' 0 6 }

/-- Bytes 1 to 5 of a ZoneMasterController frame (R54, R101). -/
def packMtzPayload (f : MtzBits) : List Byte :=
  [f.temp9.extractLsb' 0 8,
   BitVec.ofBool f.compMode ++ BitVec.ofBool f.zoneOn ++ BitVec.ofBool f.transient ++ BitVec.ofBool f.unkA ++ f.damper
     ++ f.temp9.extractLsb' 8 1,
   BitVec.ofBool f.heating ++ BitVec.ofBool f.unkB ++ f.min,
   BitVec.ofBool f.fanOnly ++ BitVec.ofBool f.unkC ++ f.sp,
   BitVec.ofBool f.compActive ++ BitVec.ofBool f.unkD ++ f.max]

/-- Bytes 0 to 5 of a ZoneMasterController frame (R54, R101). -/
def packMtzBits (zone : BitVec 4) (f : MtzBits) : List Byte := (0x8#4 ++ zone) :: packMtzPayload f

/-! ### Frames -/

/-- The frame of a type, from bytes of that type's length (R50, R51, R54, R56). -/
def buildFrame (kind : FrameKind) (b : List Byte) : Frame :=
  match kind, b with
  | .masterSetpoint, [_, v] => .masterSetpoint v
  | .fanMode, [_, v] => .fanMode v
  | .operatingMode, [_, v] => .operatingMode v
  | .zoneState, [_, v] => .zoneState v
  | .customZoneSetpoint, [_, z, v] => .customZoneSetpoint z v
  | .bcast .stateMessage, b => .stateMessage b
  | .bcast .stateMessage2, b => .stateMessage2 b
  | .bcast (.broadcast k), b => .broadcast k b
  | .zoneWallController, [b0, b1, b2, b3, b4] =>
    .zoneWallController (b0.extractLsb' 0 4) (parseWallBits b1 b2 b3) b4
  | .zoneMasterController, [b0, b1, b2, b3, b4, b5, b6] =>
    .zoneMasterController (b0.extractLsb' 0 4) (parseMtzBits b1 b2 b3 b4 b5) b6
  | _, b => .unknown .lengthMismatch b

/-- The tag gives the type; the length is checked before any payload byte is read (R80, R83). A frame has at least one byte
(R45); no bytes at all have no tag to match (assumption 17). -/
def decodeFrame (rules : List BcastRule) (b : List Byte) : Frame :=
  match b with
  | [] => .unknown .unknownTag b
  | tag :: _ =>
    match classify rules tag with
    | none => .unknown .unknownTag b
    | some r => if b.length = r.length then buildFrame r.kind b else .unknown .lengthMismatch b

/-! ### Host operations -/

/-- A 16-bit argument, high byte first (assumption 5). -/
def half (hi lo : Byte) : Half := hi ++ lo

/-- A row of R59 without arguments. -/
def args0 (sel : Byte) (args : List Byte) (i : Instr) : Instr :=
  match args with
  | [] => i
  | _ => .unassignedSelector sel args

/-- A row of R59 with one argument byte. -/
def args1 (sel : Byte) (args : List Byte) (k : Byte → Instr) : Instr :=
  match args with
  | [a] => k a
  | _ => .unassignedSelector sel args

/-- A row of R59 with two argument bytes. -/
def args2 (sel : Byte) (args : List Byte) (k : Byte → Byte → Instr) : Instr :=
  match args with
  | [a, b] => k a b
  | _ => .unassignedSelector sel args

/-- A row of R59 with three argument bytes. -/
def args3 (sel : Byte) (args : List Byte) (k : Byte → Byte → Byte → Instr) : Instr :=
  match args with
  | [a, b, c] => k a b c
  | _ => .unassignedSelector sel args

/-- A row of R59 with four argument bytes. -/
def args4 (sel : Byte) (args : List Byte) (k : Byte → Byte → Byte → Byte → Instr) : Instr :=
  match args with
  | [a, b, c, d] => k a b c d
  | _ => .unassignedSelector sel args

/-- The row of SEND_ZONE_MASTER_OVERRIDE: a zone and the five payload bytes of a master frame. -/
def args6 (sel : Byte) (args : List Byte) (k : Byte → MtzBits → Instr) : Instr :=
  match args with
  | [zone, b1, b2, b3, b4, b5] => k zone (parseMtzBits b1 b2 b3 b4 b5)
  | _ => .unassignedSelector sel args

/-- The row of PROCESS_MESSAGE: the low eight bits of a length of 0 to 256 (R59 with R3), and that many bytes (assumption 10). -/
def argsBytes (sel : Byte) (args : List Byte) (k : BitVec 9 → List Byte → Instr) : Instr :=
  match args with
  | [] => .unassignedSelector sel args
  | n :: bytes =>
    if bytes.length ≤ 256 ∧ bytes.length % 256 = n.toNat then k (BitVec.ofNat 9 bytes.length) bytes
    else .unassignedSelector sel args

/-- A host operation from its selector and its argument bytes, in R59's order; anything else is the unassigned selector (R145).
A `u8` is one byte, a `u1` is bit 0 of one byte, a 16-bit value two bytes, the record of selector 0x0B the five payload bytes
of its frame (assumption 5). -/
def decodeHost (sel : Byte) (args : List Byte) : Instr :=
  if sel = 0x01#8 then args1 sel args fun on => .setSystemOn (on.getLsbD 0)
  else if sel = 0x02#8 then args1 sel args fun mode => .setOperatingMode mode
  else if sel = 0x03#8 then args1 sel args fun speed => .setFanSpeed speed
  else if sel = 0x04#8 then args2 sel args fun speed cont => .setFanSpeedAbsolute speed cont
  else if sel = 0x05#8 then args1 sel args fun cont => .setContinuousFanMode cont
  else if sel = 0x06#8 then args2 sel args fun hi lo => .setMasterSetpoint (half hi lo)
  else if sel = 0x07#8 then args2 sel args fun zone on => .setZoneOn zone (on.getLsbD 0)
  else if sel = 0x08#8 then
    args4 sel args fun zone hi lo adj => .setZoneSetpointTemperature zone (half hi lo) (adj.getLsbD 0)
  else if sel = 0x09#8 then args3 sel args fun zone hi lo => .setZoneCurrentTemperature zone (half hi lo)
  else if sel = 0x0A#8 then args2 sel args fun zone en => .setControlZone zone (en.getLsbD 0)
  else if sel = 0x0B#8 then args6 sel args fun zone f => .sendZoneMasterOverride zone f
  else if sel = 0x0C#8 then args2 sel args fun hi lo => .clearStatus (half hi lo)
  else if sel = 0x0D#8 then args1 sel args fun v => .writeConfig v
  else if sel = 0x0E#8 then argsBytes sel args fun n bytes => .processMessage n bytes
  else if sel = 0x10#8 then args1 sel args fun n => .readReg n
  else if sel = 0x11#8 then args0 sel args .getOperatingMode
  else if sel = 0x12#8 then args0 sel args .getFanMode
  else if sel = 0x13#8 then args0 sel args .getMaster
  else if sel = 0x14#8 then args1 sel args fun zone => .getZone zone
  else if sel = 0x15#8 then args0 sel args .getCompressor
  else if sel = 0x16#8 then args0 sel args .receivingData
  else if sel = 0x17#8 then args0 sel args .pendingCount
  else .unassignedSelector sel args

/-- The instruction that bytes at a port stand for: a frame on the bus, a selector and its arguments at the host port. -/
def decode (rules : List BcastRule) (port : Port) (bytes : List Byte) : Instr :=
  match port, bytes with
  | .bus, bytes => (decodeFrame rules bytes).toInstr
  | .host, [] => .unassignedSelector 0 []
  | .host, sel :: args => decodeHost sel args

/-! ### The encoder -/

/-- A `u1` argument as a byte. -/
def bitByte (b : Bool) : Byte := 0#7 ++ BitVec.ofBool b

/-- A 16-bit argument as two bytes, high byte first. -/
def halfBytes (d : Half) : List Byte := [d.extractLsb' 8 8, d.extractLsb' 0 8]

/-- The bytes of an instruction at its port (R50, R51, R54, R59). -/
def encode : Instr → List Byte
  | .masterSetpoint sp => [0x3A, sp]
  | .fanMode v => [0x3B, v]
  | .operatingMode mode => [0x3C, mode]
  | .zoneState bitmap => [0x3D, bitmap]
  | .customZoneSetpoint zone sp => [0x3F, zone, sp]
  | .stateMessage bytes => bytes
  | .stateMessage2 bytes => bytes
  | .broadcast _ bytes => bytes
  | .zoneWallController zone f csum => packWallBits zone f ++ [csum]
  | .zoneMasterController zone f csum => packMtzBits zone f ++ [csum]
  | .unknown _ bytes => bytes
  | .setSystemOn on => [0x01, bitByte on]
  | .setOperatingMode mode => [0x02, mode]
  | .setFanSpeed speed => [0x03, speed]
  | .setFanSpeedAbsolute speed cont => [0x04, speed, cont]
  | .setContinuousFanMode cont => [0x05, cont]
  | .setMasterSetpoint d => 0x06 :: halfBytes d
  | .setZoneOn zone on => [0x07, zone, bitByte on]
  | .setZoneSetpointTemperature zone d adjustMaster => 0x08 :: zone :: halfBytes d ++ [bitByte adjustMaster]
  | .setZoneCurrentTemperature zone d => 0x09 :: zone :: halfBytes d
  | .setControlZone zone en => [0x0A, zone, bitByte en]
  | .sendZoneMasterOverride zone f => 0x0B :: zone :: packMtzPayload f
  | .clearStatus mask => 0x0C :: halfBytes mask
  | .writeConfig v => [0x0D, v]
  | .processMessage n bytes => 0x0E :: n.setWidth 8 :: bytes
  | .readReg n => [0x10, n]
  | .getOperatingMode => [0x11]
  | .getFanMode => [0x12]
  | .getMaster => [0x13]
  | .getZone zone => [0x14, zone]
  | .getCompressor => [0x15]
  | .receivingData => [0x16]
  | .pendingCount => [0x17]
  | .unassignedSelector sel args => sel :: args

/-! ### Table words -/

/-- The first `n` bytes of a word, bits 7..0 first. -/
def wordBytes : Nat → Nat → List Byte
  | 0, _ => []
  | n + 1, w => BitVec.ofNat 8 (w % 256) :: wordBytes n (w / 256)

/-- Bytes lengthened to `n` with zeros. -/
def padTo (n : Nat) (bs : List Byte) : List Byte := bs ++ List.replicate (n - bs.length) 0

/-- How many argument bytes a selector takes (R59); for PROCESS_MESSAGE, its length byte and as many bytes as it says. -/
def hostArgLength (sel : Byte) (args : List Byte) : Nat :=
  match sel.toNat with
  | 0x01 | 0x02 | 0x03 | 0x05 | 0x0D | 0x10 | 0x14 => 1
  | 0x04 | 0x06 | 0x07 | 0x0A | 0x0C => 2
  | 0x08 => 4
  | 0x09 => 3
  | 0x0B => 6
  | 0x0E => 1 + (args.headD 0).toNat
  | _ => 0

/-- Where a table word is presented and as which bytes: a first byte below 0x20 is a host selector, any other is a frame's tag
(assumption 6); the bytes are lengthened with zeros to what the selector or the tag requires. -/
def layWord (rules : List BcastRule) (nbits w : Nat) : Option (Port × List Byte) :=
  match wordBytes ((nbits + 7) / 8) w with
  | [] => none
  | b :: rest =>
    if 64 < rest.length + 1 then none
    else if b.toNat < 0x20 then some (.host, b :: padTo (hostArgLength b rest) rest)
    else
      match classify rules b with
      | none => some (.bus, b :: rest)
      | some r => some (.bus, padTo r.length (b :: rest))

/-- The instruction the decoder reads from a table word, under the reference parameters (no broadcast rule). -/
def decodeTableWord (nbits w : Nat) : Option Instr :=
  (layWord Params.reference.bcastRules nbits w).map (fun pb => decode Params.reference.bcastRules pb.1 pb.2)

end Sys2Proof
end

