-- ==== Sys2Proof/Machine/Rom.lean ====
section
/-! DEFINITION. The temperature ROM and the inverse outside its image, as 45_temperature_lut gives them (R146, R147): tables 1
and 2 in the rows of the spec, and table 3 as pairs. -/

namespace Sys2Proof.Machine

/-- Table 1, `LUT[r]` for r = -512 .. -59 (R146), part 1. -/
def romHot1 : List Int :=
  [970, 969, 967, 965, 963, 961, 960, 958, 956, 954,
   953, 951, 949, 947, 946, 944, 942, 940, 939, 937,
   935, 933, 932, 930, 928, 926, 925, 923, 921, 919,
   918, 916, 914, 912, 911, 909, 907, 905, 904, 902,
   900, 899, 897, 895, 893, 892, 890, 888, 887, 885,
   883, 881, 880, 878, 876, 875, 873, 871, 869, 868,
   866, 864, 863, 861, 859, 858, 856, 854, 853, 851,
   849, 847, 846, 844, 842, 841, 839, 837, 836, 834]

/-- Table 1, `LUT[r]` for r = -512 .. -59 (R146), part 2. -/
def romHot2 : List Int :=
  [832, 831, 829, 827, 826, 824, 822, 821, 819, 817,
   816, 814, 813, 811, 809, 808, 806, 804, 803, 801,
   799, 798, 796, 794, 793, 791, 790, 788, 786, 785,
   783, 781, 780, 778, 777, 775, 773, 772, 770, 768,
   767, 765, 764, 762, 760, 759, 757, 756, 754, 752,
   751, 749, 748, 746, 744, 743, 741, 740, 738, 737,
   735, 733, 732, 730, 729, 727, 725, 724, 722, 721,
   719, 718, 716, 714, 713, 711, 710, 708, 707, 705]

/-- Table 1, `LUT[r]` for r = -512 .. -59 (R146), part 3. -/
def romHot3 : List Int :=
  [704, 702, 700, 699, 697, 696, 694, 693, 691, 690,
   688, 687, 685, 683, 682, 680, 679, 677, 676, 674,
   673, 671, 670, 668, 667, 665, 664, 662, 661, 659,
   658, 656, 655, 653, 652, 650, 649, 647, 646, 644,
   643, 641, 640, 638, 637, 635, 634, 632, 631, 629,
   628, 626, 625, 623, 622, 620, 619, 617, 616, 614,
   613, 611, 610, 609, 607, 606, 604, 603, 601, 600,
   598, 597, 595, 594, 593, 591, 590, 588, 587, 585]

/-- Table 1, `LUT[r]` for r = -512 .. -59 (R146), part 4. -/
def romHot4 : List Int :=
  [584, 582, 581, 580, 578, 577, 575, 574, 572, 571,
   570, 568, 567, 565, 564, 562, 561, 560, 558, 557,
   555, 554, 553, 551, 550, 548, 547, 546, 544, 543,
   541, 540, 539, 537, 536, 534, 533, 532, 530, 529,
   527, 526, 525, 523, 522, 521, 519, 518, 516, 515,
   514, 512, 511, 510, 508, 507, 505, 504, 503, 501,
   500, 499, 497, 496, 495, 493, 492, 491, 489, 488,
   487, 485, 484, 483, 481, 480, 479, 477, 476, 475]

/-- Table 1, `LUT[r]` for r = -512 .. -59 (R146), part 5. -/
def romHot5 : List Int :=
  [473, 472, 471, 469, 468, 467, 465, 464, 463, 461,
   460, 459, 457, 456, 455, 454, 452, 451, 450, 448,
   447, 446, 444, 443, 442, 441, 439, 438, 437, 435,
   434, 433, 432, 430, 429, 428, 426, 425, 424, 423,
   421, 420, 419, 418, 416, 415, 414, 413, 411, 410,
   409, 407, 406, 405, 404, 402, 401, 400, 399, 398,
   396, 395, 394, 393, 391, 390, 389, 388, 386, 385,
   384, 383, 381, 380, 379, 378, 377, 375, 374, 373]

/-- Table 1, `LUT[r]` for r = -512 .. -59 (R146), part 6. -/
def romHot6 : List Int :=
  [372, 371, 369, 368, 367, 366, 365, 363, 362, 361,
   360, 359, 357, 356, 355, 354, 353, 351, 350, 349,
   348, 347, 345, 344, 343, 342, 341, 340, 338, 337,
   336, 335, 334, 333, 331, 330, 329, 328, 327, 326,
   324, 323, 322, 321, 320, 319, 318, 316, 315, 314,
   313, 312, 311, 310]

/-- `LUT[r] = 250 - r` for r = -58 .. 81 (R72, R146). -/
def romLinear : List Int := (List.range 140).map (fun k => 308 - (k : Int))

/-- Table 2, `LUT[r]` for r = 82 .. 511 (R146), part 1. -/
def romCold1 : List Int :=
  [167, 166, 165, 164, 163, 162, 161, 160, 159, 158,
   157, 156, 155, 154, 153, 152, 151, 150, 149, 148,
   147, 146, 145, 144, 143, 142, 141, 140, 139, 138,
   137, 136, 135, 134, 133, 132, 131, 130, 129, 128,
   127, 126, 124, 123, 122, 121, 120, 119, 118, 117,
   116, 115, 114, 113, 112, 111, 110, 109, 108, 107,
   106, 105, 104, 103, 102, 101, 100, 99, 98, 97,
   96, 95, 94, 93, 92, 91, 89, 88, 87, 86]

/-- Table 2, `LUT[r]` for r = 82 .. 511 (R146), part 2. -/
def romCold2 : List Int :=
  [85, 84, 83, 82, 81, 80, 79, 78, 77, 76,
   75, 74, 73, 72, 71, 70, 69, 68, 67, 66,
   65, 64, 63, 61, 60, 59, 58, 57, 56, 55,
   54, 53, 52, 51, 50, 49, 48, 47, 46, 45,
   44, 43, 42, 41, 40, 38, 37, 36, 35, 34,
   33, 32, 31, 30, 29, 28, 27, 26, 25, 24,
   23, 22, 21, 20, 19, 17, 16, 15, 14, 13,
   12, 11, 10, 9, 8, 7, 6, 5, 4, 3]

/-- Table 2, `LUT[r]` for r = 82 .. 511 (R146), part 3. -/
def romCold3 : List Int :=
  [2, 1, -1, -2, -3, -4, -5, -6, -7, -8,
   -9, -10, -11, -12, -13, -14, -15, -16, -17, -19,
   -20, -21, -22, -23, -24, -25, -26, -27, -28, -29,
   -30, -31, -32, -33, -35, -36, -37, -38, -39, -40,
   -41, -42, -43, -44, -45, -46, -47, -48, -50, -51,
   -52, -53, -54, -55, -56, -57, -58, -59, -60, -61,
   -62, -64, -65, -66, -67, -68, -69, -70, -71, -72,
   -73, -74, -75, -76, -78, -79, -80, -81, -82, -83]

/-- Table 2, `LUT[r]` for r = 82 .. 511 (R146), part 4. -/
def romCold4 : List Int :=
  [-84, -85, -86, -87, -88, -89, -91, -92, -93, -94,
   -95, -96, -97, -98, -99, -100, -101, -102, -104, -105,
   -106, -107, -108, -109, -110, -111, -112, -113, -114, -116,
   -117, -118, -119, -120, -121, -122, -123, -124, -125, -126,
   -128, -129, -130, -131, -132, -133, -134, -135, -136, -137,
   -138, -140, -141, -142, -143, -144, -145, -146, -147, -148,
   -149, -151, -152, -153, -154, -155, -156, -157, -158, -159,
   -160, -162, -163, -164, -165, -166, -167, -168, -169, -170]

/-- Table 2, `LUT[r]` for r = 82 .. 511 (R146), part 5. -/
def romCold5 : List Int :=
  [-171, -173, -174, -175, -176, -177, -178, -179, -180, -181,
   -183, -184, -185, -186, -187, -188, -189, -190, -191, -193,
   -194, -195, -196, -197, -198, -199, -200, -201, -203, -204,
   -205, -206, -207, -208, -209, -210, -211, -213, -214, -215,
   -216, -217, -218, -219, -220, -222, -223, -224, -225, -226,
   -227, -228, -229, -230, -232, -233, -234, -235, -236, -237,
   -238, -239, -241, -242, -243, -244, -245, -246, -247, -248,
   -250, -251, -252, -253, -254, -255, -256, -257, -259, -260]

/-- Table 2, `LUT[r]` for r = 82 .. 511 (R146), part 6. -/
def romCold6 : List Int :=
  [-261, -262, -263, -264, -265, -266, -268, -269, -270, -271,
   -272, -273, -274, -276, -277, -278, -279, -280, -281, -282,
   -283, -285, -286, -287, -288, -289, -290, -291, -293, -294]

/-- The ROM, stored from r = -512 (R34, R146). -/
def rom : List Int :=
  romHot1 ++ romHot2 ++ romHot3 ++ romHot4 ++ romHot5 ++ romHot6 ++ romLinear ++
  romCold1 ++ romCold2 ++ romCold3 ++ romCold4 ++ romCold5 ++ romCold6

/-- Table 3, (d, `RawFromTemp(d)`), part 1. -/
def romGaps1 : List (Int × Int) :=
  [(-292, 510), (-284, 502), (-275, 495), (-267, 487), (-258, 479), (-249, 471),
   (-240, 463), (-231, 455), (-221, 447), (-212, 438), (-202, 430), (-192, 421),
   (-182, 411), (-172, 402), (-161, 392), (-150, 383), (-139, 372), (-127, 362),
   (-115, 351), (-103, 340), (-90, 328), (-77, 316), (-63, 303), (-49, 289),
   (-34, 275), (-18, 260), (0, 244), (18, 226), (39, 206), (62, 184),
   (90, 158), (125, 123), (168, 81), (309, -59), (317, -66), (325, -72),
   (332, -79), (339, -85), (346, -90), (352, -96), (358, -101), (364, -106),
   (370, -111), (376, -115), (382, -120), (387, -124), (392, -129), (397, -133)]

/-- Table 3, (d, `RawFromTemp(d)`), part 2. -/
def romGaps2 : List (Int × Int) :=
  [(403, -137), (408, -141), (412, -145), (417, -149), (422, -153), (427, -156),
   (431, -160), (436, -163), (440, -167), (445, -170), (449, -174), (453, -177),
   (458, -180), (462, -183), (466, -187), (470, -190), (474, -193), (478, -196),
   (482, -199), (486, -202), (490, -205), (494, -208), (498, -210), (502, -213),
   (506, -216), (509, -219), (513, -222), (517, -224), (520, -227), (524, -230),
   (528, -232), (531, -235), (535, -237), (538, -240), (542, -242), (545, -245),
   (549, -247), (552, -250), (556, -252), (559, -255), (563, -257), (566, -260),
   (569, -262), (573, -264), (576, -267), (579, -269), (583, -271), (586, -273)]

/-- Table 3, (d, `RawFromTemp(d)`), part 3. -/
def romGaps3 : List (Int × Int) :=
  [(589, -276), (592, -278), (596, -280), (599, -282), (602, -285), (605, -287),
   (608, -289), (612, -291), (615, -293), (618, -295), (621, -297), (624, -300),
   (627, -302), (630, -304), (633, -306), (636, -308), (639, -310), (642, -312),
   (645, -314), (648, -316), (651, -318), (654, -320), (657, -322), (660, -324),
   (663, -326), (666, -328), (669, -330), (672, -331), (675, -333), (678, -335),
   (681, -337), (684, -339), (686, -341), (689, -343), (692, -345), (695, -346),
   (698, -348), (701, -350), (703, -352), (706, -354), (709, -355), (712, -357),
   (715, -359), (717, -361), (720, -363), (723, -364), (726, -366), (728, -368)]

/-- Table 3, (d, `RawFromTemp(d)`), part 4. -/
def romGaps4 : List (Int × Int) :=
  [(731, -370), (734, -371), (736, -373), (739, -375), (742, -376), (745, -378),
   (747, -380), (750, -381), (753, -383), (755, -385), (758, -386), (761, -388),
   (763, -390), (766, -391), (769, -393), (771, -395), (774, -396), (776, -398),
   (779, -400), (782, -401), (784, -403), (787, -404), (789, -406), (792, -408),
   (795, -409), (797, -411), (800, -412), (802, -414), (805, -415), (807, -417),
   (810, -418), (812, -420), (815, -422), (818, -423), (820, -425), (823, -426),
   (825, -428), (828, -429), (830, -431), (833, -432), (835, -434), (838, -435),
   (840, -437), (843, -438), (845, -440), (848, -441), (850, -442), (852, -444)]

/-- Table 3, (d, `RawFromTemp(d)`), part 5. -/
def romGaps5 : List (Int × Int) :=
  [(855, -445), (857, -447), (860, -448), (862, -450), (865, -451), (867, -453),
   (870, -454), (872, -456), (874, -457), (877, -458), (879, -460), (882, -461),
   (884, -463), (886, -464), (889, -465), (891, -467), (894, -468), (896, -470),
   (898, -471), (901, -472), (903, -474), (906, -475), (908, -476), (910, -478),
   (913, -479), (915, -481), (917, -482), (920, -483), (922, -485), (924, -486),
   (927, -487), (929, -489), (931, -490), (934, -491), (936, -493), (938, -494),
   (941, -495), (943, -497), (945, -498), (948, -499), (950, -501), (952, -502),
   (955, -503), (957, -504), (959, -506), (962, -507), (964, -508), (966, -510)]

/-- Table 3, (d, `RawFromTemp(d)`), part 6. -/
def romGaps6 : List (Int × Int) :=
  [(968, -511)]

/-- Table 3: (d, `RawFromTemp(d)`) for the 241 temperatures no raw value gives (R147 c). -/
def romGaps : List (Int × Int) :=
  romGaps1 ++ romGaps2 ++ romGaps3 ++ romGaps4 ++ romGaps5 ++ romGaps6

end Sys2Proof.Machine
end

