-- ==== Sys2Proof/Machine/Codec.lean ====
section
/-! DEFINITION. The pure functions of the codec: rounding and clamping (R14), the checksum (R68, R70), the temperature and
setpoint transforms (R71, R76, R78, R79, R146, R147), the mode tables (R48, R123), the fan-mode byte (R49), the derived views of
parsed frames (R52, R53, R87, R93, R97 to R99) and the generated frames (R88 to R92, R95, R101). -/

namespace Sys2Proof.Machine

/-! ### Rounding and clamping -/

/-- `rha(num / den)`: to the nearest integer, ties away from zero (R14). -/
def rha (num : Int) (den : Nat) : Int :=
  if 0 ≤ num then (2 * num + den) / (2 * den) else -((2 * -num + den) / (2 * den))

/-- `clamp(x, lo, hi) = max(lo, min(x, hi))`, so `lo` when `lo > hi` (R14). -/
def clamp (x lo hi : Int) : Int := max lo (min x hi)

/-! ### Checksum -/

/-- `Checksum(b[0..n-2])`: the subtractions of R68 in their order, on the bytes before the checksum byte. -/
def checksum (b : List Byte) : Byte :=
  let b2 := b.getD 2 0
  b.reverse.foldl (fun acc x => acc - x) (b2 - (b2 <<< 1)) - 1

/-! ### Wall-message temperature -/

/-- `TempFromRaw(raw)`, in deci-degrees: the ROM entry of a raw value in -512..511 (R71, R146). -/
def tempFromRaw (raw : Int) : Int := rom.getD (raw + 512).toNat 0

/-- The first raw value, from `r` on, whose ROM entry is `d`. -/
def romFind (d : Int) : List Int → Int → Option Int
  | [], _ => none
  | v :: vs, r => if v = d then some r else romFind d vs (r + 1)

/-- The entry of table 3 for `d`. -/
def gapFind (d : Int) : List (Int × Int) → Option Int
  | [] => none
  | (k, r) :: rest => if k = d then some r else gapFind d rest

/-- `RawFromTemp(d)` by the cases of R147: the linear range, saturation, the ROM's inverse, table 3. -/
def rawFromTemp (d : Int) : Int :=
  if 169 ≤ d ∧ d ≤ 308 then 250 - d
  else if 971 ≤ d then -512
  else if d ≤ -295 then 511
  else
    match romFind d rom (-512) with
    | some r => r
    | none => (gapFind d romGaps).getD 0

/-- `low10 = RawFromTemp(d) mod 1024` (R76, R95). -/
def low10OfTemp (d : Half) : BitVec 10 := BitVec.ofInt 10 (rawFromTemp d.toInt)

/-! ### Setpoints -/

/-- `SpFromTemp(d) = rha(d / 5)`, in half-degrees, not clamped (R78). -/
def spFromTemp (d : Int) : Int := rha d 5

/-- `TempFromSp(s) = 5 s`, in deci-degrees (R78). -/
def tempFromSp (s : Int) : Int := 5 * s

/-- The clamp of the host intents: 32..60 half-degrees (R78, R128). -/
def clampSp (s : Int) : Int := clamp s 32 60

/-! ### Modes -/

/-- The operating modes (R48). -/
inductive OpMode where
  | off
  | offAuto
  | offCool
  | offHeat
  | fanOnly
  | auto
  | cool
  | heat
deriving DecidableEq, Repr

/-- The code of a mode (R48). -/
def opModeCode : OpMode → Byte
  | .off => 0
  | .offAuto => 1
  | .offCool => 2
  | .offHeat => 3
  | .fanOnly => 4
  | .auto => 5
  | .cool => 6
  | .heat => 7

/-- The mode of a code; the codes 8..255 are reserved (R48). -/
def opModeOfCode (c : Byte) : Option OpMode :=
  match c.toNat with
  | 0 => some .off
  | 1 => some .offAuto
  | 2 => some .offCool
  | 3 => some .offHeat
  | 4 => some .fanOnly
  | 5 => some .auto
  | 6 => some .cool
  | 7 => some .heat
  | _ => none

/-- `ON_TABLE` (R123). -/
def onTable : OpMode → OpMode
  | .off => .fanOnly
  | .offAuto => .auto
  | .offCool => .cool
  | .offHeat => .heat
  | .fanOnly => .fanOnly
  | .auto => .auto
  | .cool => .cool
  | .heat => .heat

/-- `OFF_TABLE` (R123). -/
def offTable : OpMode → OpMode
  | .off => .off
  | .offAuto => .offAuto
  | .offCool => .offCool
  | .offHeat => .offHeat
  | .fanOnly => .off
  | .auto => .offAuto
  | .cool => .offCool
  | .heat => .offHeat

/-- The fan-mode byte `{cont, 0b00000, speed}` (R49, R125). -/
def fanByte (cont : Bool) (speed : BitVec 2) : Byte := BitVec.ofBool cont ++ 0#5 ++ speed

/-- The speed code of a fan-mode byte, bits 1:0 (R49). -/
def fanByteSpeed (v : Byte) : BitVec 2 := v.extractLsb' 0 2

/-- The continuous flag of a fan-mode byte, bit 7 (R49). -/
def fanByteCont (v : Byte) : Bool := v.getLsbD 7

/-- The reserved bits of a fan-mode byte, bits 6:2 (R49, R87). -/
def fanByteReserved (v : Byte) : BitVec 5 := v.extractLsb' 2 5

/-- Zone z of a zone-on bitmap: bit z-1 (R50). -/
def bitmapZone (m : Byte) (z : Zone) : Bool := m.getLsbD (z.number - 1)

/-- A zone-on bitmap with zone z switched (R129). -/
def bitmapSet (m : Byte) (z : Zone) (on : Bool) : Byte :=
  if on then m ||| (1#8 <<< (z.number - 1)) else m &&& ~~~(1#8 <<< (z.number - 1))

/-! ### What a received command says -/

/-- The fields `ParseCommand` gives (R87). -/
inductive CommandView where
  | masterSetpoint (sp : Byte)
  | fanMode (speed : BitVec 2) (cont : Bool) (res : BitVec 5)
  | operatingMode (mode : Byte)
  | zoneState (bitmap : Byte)
  | customZoneSetpoint (zone sp : Byte)
deriving DecidableEq, Repr

/-- `ParseCommand(type, b)` for the five command types; it writes no state (R87). -/
def parseCommand : Frame → Option CommandView
  | .masterSetpoint sp => some (.masterSetpoint sp)
  | .fanMode v => some (.fanMode (fanByteSpeed v) (fanByteCont v) (fanByteReserved v))
  | .operatingMode mode => some (.operatingMode mode)
  | .zoneState bitmap => some (.zoneState bitmap)
  | .customZoneSetpoint zone sp => some (.customZoneSetpoint zone sp)
  | .stateMessage _ | .stateMessage2 _ | .broadcast _ _ => none
  | .zoneWallController _ _ _ | .zoneMasterController _ _ _ | .unknown _ _ => none

/-- The setpoint a command carries, `TempFromSp(sp)` deci-degrees (R87). -/
def commandSetpoint : CommandView → Option Int
  | .masterSetpoint sp => some (tempFromSp sp.toNat)
  | .customZoneSetpoint _ sp => some (tempFromSp sp.toNat)
  | .fanMode _ _ _ | .operatingMode _ | .zoneState _ => none

/-! ### Views of zone frames -/

/-- The mode of a wall frame (R52). -/
inductive WallMode where
  | off
  | on
  | opn
deriving DecidableEq, Repr

/-- The sub-type of a wall frame (R52). -/
inductive WallSubtype where
  | normal
  | config
  | initZone
deriving DecidableEq, Repr

/-- Open if `open`, else On if `on`, else Off (R52, R93). -/
def wallMode (f : WallBits) : WallMode := if f.opn then .opn else if f.on then .on else .off

/-- InitZone if `init`, else Config if `config`, else Normal (R52, R93). -/
def wallSubtype (f : WallBits) : WallSubtype := if f.init then .initZone else if f.config then .config else .normal

/-- The flags a mode and a sub-type generate: (on, open, config, init) (R52, R95). -/
def wallFlags (m : WallMode) (t : WallSubtype) : Bool × Bool × Bool × Bool :=
  let (on, opn) := match m with
    | .off => (false, false)
    | .on => (true, false)
    | .opn => (true, true)
  let (config, init) := match t with
    | .normal => (false, false)
    | .config => (true, false)
    | .initZone => (false, true)
  (on, opn, config, init)

/-- The temperature of a Normal or InitZone frame, in deci-degrees (R53, R93). -/
def wallTemperature (f : WallBits) : Option Int :=
  match wallSubtype f with
  | .config => none
  | .normal => some (tempFromRaw f.low10.toInt)
  | .initZone => some (tempFromRaw f.low10.toInt)

/-- The calibration offset of a Config frame, `sext_8(b[3])` deci-degrees (R53, R93). -/
def wallCalibration (f : WallBits) : Option Int :=
  match wallSubtype f with
  | .config => some (f.low10.extractLsb' 0 8).toInt
  | .normal => none
  | .initZone => none

/-- The setpoint of a wall frame, `TempFromSp(sp)` deci-degrees (R93). -/
def wallSetpoint (f : WallBits) : Int := tempFromSp f.sp.toNat

/-- `low10` with a calibration offset in its low eight bits: `low10[7:0] = c mod 256` (R95). -/
def low10OfCalibration (hi : BitVec 2) (c : Int) : BitVec 10 := hi ++ BitVec.ofInt 8 c

/-- `damperPct = 20 * min(damper, 5)` (R98). -/
def damperPct (damper : BitVec 3) : Byte := BitVec.ofNat 8 (20 * min damper.toNat 5)

/-- The temperature of a master frame: `d = temp9` (R79, R97). -/
def mtzTemperature (f : MtzBits) : Int := f.temp9.toNat

/-- The target setpoint of a master frame, `TempFromSp(sp)` deci-degrees (R97). -/
def mtzSetpoint (f : MtzBits) : Int := tempFromSp f.sp.toNat

/-- The lower bound of a master frame's setpoint range, `TempFromSp(min)` deci-degrees (R97). -/
def mtzMinSetpoint (f : MtzBits) : Int := tempFromSp f.min.toNat

/-- The upper bound of a master frame's setpoint range, `TempFromSp(max)` deci-degrees (R97). -/
def mtzMaxSetpoint (f : MtzBits) : Int := tempFromSp f.max.toNat

/-- `temp9 = d mod 512` on generate (R79). -/
def temp9OfTemp (d : Int) : BitVec 9 := BitVec.ofInt 9 d

/-- The derived operation-mode classification (R99). -/
inductive OpClass where
  | systemOff
  | zoneOff
  | fanOnly
  | standby
  | heating
  | cooling
deriving DecidableEq, Repr

/-- `opClass`: the first that applies (R99). -/
def opClass (f : MtzBits) : OpClass :=
  if !f.compMode && !f.fanOnly then .systemOff
  else if !f.zoneOn then .zoneOff
  else if f.fanOnly then .fanOnly
  else if !f.compActive then .standby
  else if f.heating then .heating
  else .cooling

/-! ### Parse and generate -/

/-- `ParseWall(b)`, for five bytes with the zone already checked; `csumOk` is the check of R70 (R93, R94). -/
def parseWall (b : List Byte) : WallFields :=
  { toWallBits := parseWallBits (b.getD 1 0) (b.getD 2 0) (b.getD 3 0)
    zone := (b.getD 0 0).extractLsb' 0 4
    csumOk := b.getD 4 0 == checksum (b.take 4) }

/-- `ParseMtz(b)`, for seven bytes with the zone already checked; `csumOk` is the check of R70 (R97, R100). -/
def parseMtz (b : List Byte) : MtzFields :=
  { toMtzBits := parseMtzBits (b.getD 1 0) (b.getD 2 0) (b.getD 3 0) (b.getD 4 0) (b.getD 5 0)
    zone := (b.getD 0 0).extractLsb' 0 4
    csumOk := b.getD 6 0 == checksum (b.take 6) }

/-- `GenWall(f)` (R95). -/
def genWall (f : WallFields) : List Byte :=
  let b := packWallBits f.zone f.toWallBits
  b ++ [checksum b]

/-- `GenMtz(f)` (R101). -/
def genMtz (f : MtzFields) : List Byte :=
  let b := packMtzBits f.zone f.toMtzBits
  b ++ [checksum b]

/-- `GenMasterSetpoint(v)` (R88). -/
def genMasterSetpoint (v : Byte) : List Byte := [0x3A, v]

/-- `GenFanMode(v)` (R89). -/
def genFanMode (v : Byte) : List Byte := [0x3B, v]

/-- `GenOperatingMode(v)` (R90). -/
def genOperatingMode (v : Byte) : List Byte := [0x3C, v]

/-- `GenZoneState(v)` (R91). -/
def genZoneState (v : Byte) : List Byte := [0x3D, v]

/-- `GenCustomZoneSetpoint(z, v)` (R92). -/
def genCustomZoneSetpoint (v : CustomSp) : List Byte := [0x3F, v.zone.setWidth 8, v.sp]

end Sys2Proof.Machine
end

