-- ==== Sys2Proof/Machine/State.lean ====
section
/-! DEFINITION. The machine state: every element of 10_state, in the groups of R160, with the parameters, the environment's
input events and the output ports beside them. Plain data. -/

namespace Sys2Proof.Machine

/-! ### Events of the block -/

/-- An input event (R15). `t` is the value of the time base when it occurs; a host operation carries its selector and its
argument bytes. -/
inductive Event where
  | rxByte (t : Word) (b : Byte)
  | tick (t : Word)
  | txComplete (t : Word)
  | host (t : Word) (sel : Byte) (args : List Byte)
  | reset
deriving DecidableEq, Repr

/-- The event codes 0 to 10, the error and information conditions of R149. -/
inductive EventCode where
  | frameTooLong
  | unknownTag
  | lengthMismatch
  | checksumMismatch
  | rxZoneRange
  | echoFrame
  | debounceSuppressed
  | intentStale
  | intentZoneRange
  | intentNoContext
  | badArgument
deriving DecidableEq, Repr

/-- `CNT[0..10]`: one counter for each event code (R29). -/
structure Counters where
  frameTooLong : Word
  unknownTag : Word
  lengthMismatch : Word
  checksumMismatch : Word
  rxZoneRange : Word
  echoFrame : Word
  debounceSuppressed : Word
  intentStale : Word
  intentZoneRange : Word
  intentNoContext : Word
  badArgument : Word
deriving DecidableEq, Repr

/-! ### Host results -/

/-- A (valid, value) pair of an accessor; an invalid one has value 0 (44_host_ops section 4). -/
structure Reading (α : Type) where
  valid : Bool
  value : α
deriving DecidableEq, Repr

/-- What the port `host_result` shows (R17): the tuple of the accessor, or nothing. -/
inductive HostResult where
  | none
  | operatingMode (mode lastMode : Reading Byte)
  | fanMode (speed : Reading (BitVec 2)) (continuous fanActive : Reading Bool)
  | master (setpoint : Reading Byte) (currentTemperature : Reading Half)
  | zone (on : Reading Bool) (setpoint : Reading Byte) (currentTemperature : Reading (BitVec 9))
      (damperPct : Reading Byte)
  | compressor (mode active : Reading Bool)
  | receivingData (live : Bool)
  | pendingCount (n : Byte)
  | register (v : Word)
deriving DecidableEq, Repr

/-! ### The groups of the state -/

/-- A byte store: (address, byte) pairs, addresses strictly rising, no entry 0; an unlisted address reads 0, the reset
contents (R21, R23, R160). -/
abbrev Memory := List Host.Cell

/-- The framer (R21). -/
structure Framer where
  buf : Memory
  len : Nat
  tLast : Word
  echoAcc : Bool
deriving DecidableEq, Repr

/-- The timestamps with their valid bits, and the latches of the arbiter (R22). -/
structure Timing where
  rxSeen : Bool
  tRx : Word
  frameSeen : Bool
  tFrame : Word
  txEndSeen : Bool
  tTxEnd : Word
  attSeen : Bool
  tAtt : Word
  cmdSeen : Bool
  tCmd : Word
  dataSeen : Bool
  tData : Word
  windowUsed : Bool
  eosFlag : Bool
deriving DecidableEq, Repr

/-- The transmit sequencer and the write-enable output (R23). -/
structure Transmitter where
  txBusy : Bool
  txBuf : Memory
  txLen : Nat
  txStart : Word
  de : Bool
deriving DecidableEq, Repr

/-- A command slot: a value and a pending flag (R24). -/
structure Slot (α : Type) where
  value : α
  pending : Bool
deriving DecidableEq, Repr

/-- The thirteen slots (R24). -/
structure Slots where
  opMode : Slot Byte
  zoneState : Slot Byte
  fanMode : Slot Byte
  masterSp : Slot Byte
  customSp : Slot CustomSp
  mtz : Zones (Slot MtzFields)
deriving DecidableEq, Repr

/-- The name of a slot (R24). -/
inductive SlotId where
  | opMode
  | zoneState
  | fanMode
  | masterSp
  | customSp
  | mtz (z : Zone)
deriving DecidableEq, Repr

/-- A receive latch: its content and its valid bit (R27). -/
structure Latch (α : Type) where
  value : α
  valid : Bool
deriving DecidableEq, Repr

/-- The receive latches (R27). -/
structure Latches where
  zw : Zones (Latch WallFields)
  mtz : Zones (Latch MtzFields)
  sm : Latch (List Byte)
  sm2 : Latch (List Byte)
deriving DecidableEq, Repr

/-- The zone-emulation registers (R28). -/
structure Emulation where
  controlled : Zones Bool
  emuTempValid : Zones Bool
  emuTemp : Zones Half
  desiredValid : Zones Bool
  desiredSp : Zones Byte
deriving DecidableEq, Repr

/-- STATUS, the counters and CONFIG (R29, R30). -/
structure Registers where
  status : BitVec 16
  cnt : Counters
  cntFrames : Word
  config : Byte
deriving DecidableEq, Repr

/-- The output ports beside `de` and `txBuf` (R17): the `tx_start` strobe and `host_result` of the last event. -/
structure Outputs where
  txStrobe : Bool
  hostResult : HostResult
deriving DecidableEq, Repr

/-- The machine. `params` and `inputs` are the model's own: the parameters fixed for a run (R44, R160; assumption 1) and the
events the environment is still to present, in order (R41; assumption 3). `out` holds output ports (assumption 4). -/
structure State where
  params : Params
  inputs : List Event
  out : Outputs
  now : Word
  framer : Framer
  timing : Timing
  tx : Transmitter
  slots : Slots
  respPending : Zones Bool
  latches : Latches
  emu : Emulation
  regs : Registers
deriving DecidableEq, Repr

/-! ### The reasons a step can stop -/

/-- Faults. -/
inductive Fault where
  /-- Raised by the framer when it would read or write the frame buffer outside 0..P_FRAME_CAP-1 (R35: no rule issues such an
  address). Safe: it can happen only in a state whose `len` exceeds the capacity, which no run reaches. -/
  | bufferAddress (addr : Nat)
deriving DecidableEq, Repr

/-- Refusals. -/
inductive Refusal where
  /-- Raised by `exec` for an instruction without a meaning; no arm raises it in this model. Safe. -/
  | notModelled (mnemonic : String)
deriving DecidableEq, Repr

/-! ### Reset -/

/-- The field values of a wall record at reset: all 0 (R27, R160). -/
def wallZero : WallFields :=
  { sp := 0, on := false, opn := false, config := false, init := false, unk := 0, low10 := 0, zone := 0, csumOk := false }

/-- The field values of an MtzFields record at reset: all 0 (R24, R27, R160). -/
def mtzZero : MtzFields :=
  { temp9 := 0, compMode := false, zoneOn := false, transient := false, unkA := false, damper := 0, heating := false,
    unkB := false, min := 0, fanOnly := false, unkC := false, sp := 0, compActive := false, unkD := false, max := 0,
    zone := 0, csumOk := false }

/-- The counters at reset (R29). -/
def countersZero : Counters := ⟨0, 0, 0, 0, 0, 0, 0, 0, 0, 0, 0⟩

/-- The state after reset under the parameters `p`: every element at the value of R160. -/
def State.resetWith (p : Params) : State :=
  { params := p
    inputs := []
    out := { txStrobe := false, hostResult := .none }
    now := 0
    framer := { buf := [], len := 0, tLast := 0, echoAcc := false }
    timing :=
      { rxSeen := false, tRx := 0, frameSeen := false, tFrame := 0, txEndSeen := false, tTxEnd := 0, attSeen := false,
        tAtt := 0, cmdSeen := false, tCmd := 0, dataSeen := false, tData := 0, windowUsed := false, eosFlag := false }
    tx := { txBusy := false, txBuf := [], txLen := 0, txStart := 0, de := false }
    slots :=
      { opMode := ⟨0, false⟩, zoneState := ⟨0, false⟩, fanMode := ⟨0, false⟩, masterSp := ⟨0, false⟩,
        customSp := ⟨⟨0, 0⟩, false⟩, mtz := Zones.const ⟨mtzZero, false⟩ }
    respPending := Zones.const false
    latches :=
      { zw := Zones.const ⟨wallZero, false⟩, mtz := Zones.const ⟨mtzZero, false⟩, sm := ⟨List.replicate 23 0, false⟩,
        sm2 := ⟨List.replicate 18 0, false⟩ }
    emu :=
      { controlled := Zones.const false, emuTempValid := Zones.const false, emuTemp := Zones.const 0,
        desiredValid := Zones.const false, desiredSp := Zones.const 0 }
    regs := { status := 0, cnt := countersZero, cntFrames := 0, config := 0 } }

/-- The machine right after reset, under the reference parameters (R160; assumption 1). -/
def State.reset : State := State.resetWith Params.reference

end Sys2Proof.Machine
end

