-- ==== Sys2Proof/Machine/Flags.lean ====
section
/-! DEFINITION. The Boolean state the rules read and the events they raise: elapsed time and the timer predicates (60_exceptions
R155), and `raise Event`, the block's only report of an error condition (R148, R150). -/

namespace Sys2Proof.Machine

/-! ### Time -/

/-- `elapsed(t0) = (now - t0) mod 2^32` (R14, R20). -/
abbrev elapsed (s : State) (t0 : Word) : Nat := (s.now - t0).toNat

/-- The frame in progress has timed out: `elapsed(tLast) >= T_SIL` (R61). -/
def silent (s : State) : Bool := decide (Config.tSil ≤ elapsed s s.framer.tLast)

/-- `IsEchoByte(t)`, at t = now (R67). -/
def isEchoByte (s : State) : Bool :=
  s.tx.txBusy || (s.timing.txEndSeen && decide (elapsed s s.timing.tTxEnd < s.params.tEcho))

/-- `Quiet()` (R106). -/
def quiet (s : State) : Bool :=
  s.timing.rxSeen && decide (Config.tQMin ≤ elapsed s s.timing.tRx) && decide (elapsed s s.timing.tRx < Config.tQMax)

/-- `SpacingOk()` (R108). -/
def spacingOk (s : State) : Bool := !s.timing.attSeen || decide (Config.tSpace ≤ elapsed s s.timing.tAtt)

/-- `receivingData()` (R111). -/
def receivingData (s : State) : Bool := s.timing.frameSeen && decide (elapsed s s.timing.tFrame < Config.tLive)

/-- `debounceActive()` (R112). -/
def debounceActive (s : State) : Bool :=
  (s.timing.cmdSeen && decide (elapsed s s.timing.tCmd < Config.tDeb))
    || (s.timing.dataSeen && decide (elapsed s s.timing.tData < Config.tDeb))

/-- `CONFIG.CSUM_REJECT` (R30). -/
def csumReject (s : State) : Bool := s.regs.config.getLsbD 0

/-! ### Events -/

/-- The code of an event: its STATUS bit and its counter's number (R149). -/
def eventCode : EventCode → Nat
  | .frameTooLong => 0
  | .unknownTag => 1
  | .lengthMismatch => 2
  | .checksumMismatch => 3
  | .rxZoneRange => 4
  | .echoFrame => 5
  | .debounceSuppressed => 6
  | .intentStale => 7
  | .intentZoneRange => 8
  | .intentNoContext => 9
  | .badArgument => 10

/-- The counter of an event (R29). -/
def counterOf (c : Counters) : EventCode → Word
  | .frameTooLong => c.frameTooLong
  | .unknownTag => c.unknownTag
  | .lengthMismatch => c.lengthMismatch
  | .checksumMismatch => c.checksumMismatch
  | .rxZoneRange => c.rxZoneRange
  | .echoFrame => c.echoFrame
  | .debounceSuppressed => c.debounceSuppressed
  | .intentStale => c.intentStale
  | .intentZoneRange => c.intentZoneRange
  | .intentNoContext => c.intentNoContext
  | .badArgument => c.badArgument

/-- The counters with one raise of an event more, modulo 2^32 (R150). -/
def countEvent (c : Counters) : EventCode → Counters
  | .frameTooLong => { c with frameTooLong := c.frameTooLong + 1 }
  | .unknownTag => { c with unknownTag := c.unknownTag + 1 }
  | .lengthMismatch => { c with lengthMismatch := c.lengthMismatch + 1 }
  | .checksumMismatch => { c with checksumMismatch := c.checksumMismatch + 1 }
  | .rxZoneRange => { c with rxZoneRange := c.rxZoneRange + 1 }
  | .echoFrame => { c with echoFrame := c.echoFrame + 1 }
  | .debounceSuppressed => { c with debounceSuppressed := c.debounceSuppressed + 1 }
  | .intentStale => { c with intentStale := c.intentStale + 1 }
  | .intentZoneRange => { c with intentZoneRange := c.intentZoneRange + 1 }
  | .intentNoContext => { c with intentNoContext := c.intentNoContext + 1 }
  | .badArgument => { c with badArgument := c.badArgument + 1 }

/-- `raise Event(k)`: STATUS bit k set, CNT[k] counted, nothing else (R150). -/
def raiseEvent (k : EventCode) (s : State) : State :=
  { s with regs := { s.regs with
      status := s.regs.status ||| (1#16 <<< eventCode k)
      cnt := countEvent s.regs.cnt k } }

end Sys2Proof.Machine
end

