-- ==== Sys2Proof/Machine/Ops.lean ====
section
/-! DEFINITION. The named operations over storage, slots, latches and the transmitter: the byte stores (20_memory R34, R35), the
enqueueing of a slot (R120), the acceptance of a frame (R82, R86) and `TxStart` (R116). The block takes no exception and returns
from none (R148, R153): what it has in their place is `raiseEvent`, in Flags.lean. -/

namespace Sys2Proof.Machine

/-- What a step or a meaning answers. -/
abbrev Result := Host.Outcome State Fault Refusal

/-- Go on with the next state; a fault or a refusal stands. -/
def andThen (o : Result) (k : State → Result) : Result :=
  match o with
  | .next s => k s
  | .fault r => .fault r
  | .refused r => .refused r

/-! ### Byte stores -/

/-- The byte at an address; an unlisted address reads 0. -/
def memoryRead : Memory → Nat → Byte
  | [], _ => 0
  | (k, v) :: m, a => if k = a then v else memoryRead m a

/-- The store with the byte at an address replaced, in canonical form: writing 0 leaves no entry. -/
def memoryWrite : Memory → Nat → Byte → Memory
  | [], a, v => if v = 0 then [] else [(a, v)]
  | (k, w) :: m, a, v =>
    if a < k then (if v = 0 then (k, w) :: m else (a, v) :: (k, w) :: m)
    else if a = k then (if v = 0 then m else (a, v) :: m)
    else (k, w) :: memoryWrite m a v

/-- The bytes written from an address on, first byte first. -/
def memoryWriteAll : Memory → Nat → List Byte → Memory
  | m, _, [] => m
  | m, a, b :: bs => memoryWriteAll (memoryWrite m a b) (a + 1) bs

/-- The canonical form: addresses strictly rising, no entry 0. -/
def memoryWf : Memory → Bool
  | [] => true
  | [(_, v)] => v != 0
  | (k, v) :: (k', v') :: m => v != 0 && decide (k < k') && memoryWf ((k', v') :: m)

/-- Every listed address is below a bound. -/
def memoryBelow (n : Nat) (m : Memory) : Bool := m.all (fun c => decide (c.1 < n))

/-- `MemRead(a, 1)` on the frame buffer; none outside 0..P_FRAME_CAP-1 (R35). -/
def memRead (s : State) (a : Nat) : Option Byte :=
  if a < s.params.frameCap then some (memoryRead s.framer.buf a) else none

/-- `MemWrite(a, 1, v)` on the frame buffer; none outside 0..P_FRAME_CAP-1 (R35). -/
def memWrite (s : State) (a : Nat) (v : Byte) : Option State :=
  if a < s.params.frameCap then
    some { s with framer := { s.framer with buf := memoryWrite s.framer.buf a v } }
  else none

/-- The bytes at `n` addresses from `a` on; none if one of them does not exist. -/
def memReadFrom (s : State) : Nat → Nat → Option (List Byte)
  | _, 0 => some []
  | a, n + 1 =>
    match memRead s a, memReadFrom s (a + 1) n with
    | some b, some bs => some (b :: bs)
    | _, _ => none

/-- The bytes of the frame in progress: `[MemRead(i, 1) for i in 0..len-1]` (R65). -/
def frameBytes (s : State) : Option (List Byte) := memReadFrom s 0 s.framer.len

/-! ### Accepting a frame -/

/-- A completed peer frame refreshes liveness (R82). -/
def refreshLiveness (s : State) : State :=
  { s with timing := { s.timing with frameSeen := true, tFrame := s.now } }

/-- An accepted frame is counted (R86). -/
def countFrame (s : State) : State :=
  { s with regs := { s.regs with cntFrames := s.regs.cntFrames + 1 } }

/-- An accepted broadcast of type `P_FINAL_TYPE` sets the end-of-sequence flag (R86, R107). -/
def markFinal (t : BcastType) (s : State) : State :=
  if s.params.finalType = some t then { s with timing := { s.timing with eosFlag := true } } else s

/-! ### Slots -/

/-- A slot's new value, pending (R120). -/
def enqueue {α : Type} (v : α) : Slot α := { value := v, pending := true }

/-- A slot no longer pending; it keeps its value (R114). -/
def dequeue {α : Type} (x : Slot α) : Slot α := { x with pending := false }

/-- A latch that holds `v` as data (R27). -/
def latched {α : Type} (v : α) : Latch α := { value := v, valid := true }

/-! ### The transmitter -/

/-- `TxStart(bytes)`: the frame is handed to the UART, and the write-enable is asserted if there is one (R116). -/
def txStart (bytes : List Byte) (s : State) : State :=
  { s with
    tx :=
      { txBusy := true
        txBuf := memoryWriteAll s.tx.txBuf 0 bytes
        txLen := bytes.length
        txStart := s.now
        de := s.params.hasDe }
    out := { s.out with txStrobe := true } }

/-- The bytes the UART takes: `txBuf[0..txLen-1]` (R116). -/
def txBytes (s : State) : List Byte := (List.range s.tx.txLen).map (memoryRead s.tx.txBuf)

/-- The earliest time after `txStart`, in ms, at which the UART reports the end of the transmission: `ceil(25 n / 12)` (R117). -/
def txLowerBound (n : Nat) : Nat := (25 * n + 11) / 12

end Sys2Proof.Machine
end

