-- ==== Sys2Proof/Machine/Operands.lean ====
section
/-! DEFINITION. What the host operations take their values from: the checks of R119 in their order, the system-wide fields
(R121), the value an intent builds on (R122), and the readings of the accessors. -/

namespace Sys2Proof.Machine

/-- `P_STATE_DECODE(type, bytes)`: the fields the parameter's graph gives, none for bytes it does not list (R11). -/
def stateDecode (p : Params) (t : BcastType) (bytes : List Byte) : StateFields :=
  match p.stateDecode.find? (fun r => r.type == t && r.bytes == bytes) with
  | some r => r.fields
  | none => StateFields.absent

/-- `SrcFields()`: StateMessage if its latch is valid, else StateMessage2 if valid, else nothing (R121). -/
def srcFields (s : State) : StateFields :=
  if s.latches.sm.valid then stateDecode s.params .stateMessage s.latches.sm.value
  else if s.latches.sm2.valid then stateDecode s.params .stateMessage2 s.latches.sm2.value
  else StateFields.absent

/-- `Base(slot, field)`: the slot's value if it is pending, else the field (R122). -/
def base {α : Type} (slot : Slot α) (field : Option α) : Option α := if slot.pending then some slot.value else field

/-- The gate of the eight intents: INTENT_STALE and no other effect while nothing is received (R119, check 1). -/
def gated (s : State) (k : State → Result) : Result :=
  if receivingData s then k s else .next (raiseEvent .intentStale s)

/-- The zone argument in 1..8, else INTENT_ZONE_RANGE and no other effect (R119, check 2). -/
def withZone (zone : Byte) (s : State) (k : Zone → State → Result) : Result :=
  match Zone.ofNat? zone.toNat with
  | some z => k z s
  | none => .next (raiseEvent .intentZoneRange s)

/-- The argument in its domain, else BAD_ARGUMENT and no other effect (R119, check 3). -/
def withDomain (ok : Bool) (s : State) (k : State → Result) : Result :=
  if ok then k s else .next (raiseEvent .badArgument s)

/-- The value the intent builds on, else INTENT_NO_CONTEXT and no other effect (R119, check 4). -/
def withContext {α : Type} (v : Option α) (s : State) (k : α → State → Result) : Result :=
  match v with
  | some x => k x s
  | none => .next (raiseEvent .intentNoContext s)

/-- The (valid, value) pair of an optional value, value 0 when there is none (44_host_ops section 4). -/
def readingOf {α : Type} (zero : α) : Option α → Reading α
  | some v => { valid := true, value := v }
  | none => { valid := false, value := zero }

/-- The content of a valid latch. -/
def latchValue {α : Type} (l : Latch α) : Option α := if l.valid then some l.value else none

/-- A result on the port `host_result` (R17). -/
def answer (r : HostResult) (s : State) : State := { s with out := { s.out with hostResult := r } }

end Sys2Proof.Machine
end

