-- ==== Sys2Proof/Machine/HostReads.lean ====
section
/-! DEFINITION. The read accessors, READ_REG and the unassigned selectors (44_host_ops section 4, 10_state R31). A read changes
no state; its result stands at the port `host_result`. -/

namespace Sys2Proof.Machine

/-- The slots in priority order, highest first (R24, R113). -/
def slotOrder : List SlotId := [.opMode, .zoneState, .fanMode, .masterSp, .customSp] ++ Zone.all.map .mtz

/-- The pending flag of a slot (R24). -/
def slotPending (s : State) : SlotId → Bool
  | .opMode => s.slots.opMode.pending
  | .zoneState => s.slots.zoneState.pending
  | .fanMode => s.slots.fanMode.pending
  | .masterSp => s.slots.masterSp.pending
  | .customSp => s.slots.customSp.pending
  | .mtz z => (s.slots.mtz.get z).pending

/-- How many of the thirteen slots are pending (R143). -/
def pendingSlots (s : State) : Nat := (slotOrder.filter (slotPending s)).length

/-- A flag as bit `n` of a register (R31). -/
def flagBit (n : Nat) (b : Bool) : Word := if b then 1#32 <<< n else 0

/-- Eight zone flags, zone z as bit z-1 (R31). -/
def zoneFlags (v : Zones Bool) : Word :=
  Zone.all.foldl (fun acc z => acc ||| flagBit (z.number - 1) (v.get z)) 0

/-- PENDING (R31). -/
def regPending (s : State) : Word :=
  flagBit 0 s.slots.opMode.pending ||| flagBit 1 s.slots.zoneState.pending ||| flagBit 2 s.slots.fanMode.pending
    ||| flagBit 3 s.slots.masterSp.pending ||| flagBit 4 s.slots.customSp.pending
    ||| Zone.all.foldl (fun acc z => acc ||| flagBit (7 + z.number) (s.slots.mtz.get z).pending) 0

/-- LINK (R31). -/
def regLink (s : State) : Word :=
  flagBit 0 (receivingData s) ||| flagBit 1 s.tx.txBusy ||| flagBit 2 s.tx.de ||| flagBit 3 s.timing.windowUsed
    ||| flagBit 4 s.timing.eosFlag ||| flagBit 5 (debounceActive s) ||| flagBit 6 (decide (0 < s.framer.len))

/-- The event whose counter is register 0x10 + k (R31, R149). -/
def counterCode : Nat → Option EventCode
  | 0 => some .frameTooLong
  | 1 => some .unknownTag
  | 2 => some .lengthMismatch
  | 3 => some .checksumMismatch
  | 4 => some .rxZoneRange
  | 5 => some .echoFrame
  | 6 => some .debounceSuppressed
  | 7 => some .intentStale
  | 8 => some .intentZoneRange
  | 9 => some .intentNoContext
  | 10 => some .badArgument
  | _ => none

/-- Register `n` of R31, zero-extended; none for an unassigned number (R144). -/
def registerValue (n : Byte) (s : State) : Option Word :=
  match n.toNat with
  | 0x00 => some (s.regs.status.setWidth 32)
  | 0x01 => some (s.regs.config.setWidth 32)
  | 0x02 => some (regPending s)
  | 0x03 => some (regLink s)
  | 0x04 => some (BitVec.ofNat 32 s.framer.len)
  | 0x05 => some (zoneFlags s.emu.controlled)
  | 0x06 => some (zoneFlags s.respPending)
  | 0x08 => some s.regs.cntFrames
  | k => if 0x10 ≤ k then (counterCode (k - 0x10)).map (counterOf s.regs.cnt) else none

/-- READ_REG (R144): an unassigned number reads 0 and raises BAD_ARGUMENT. -/
def execReadReg (n : Byte) (s : State) : Result :=
  match registerValue n s with
  | some v => .next (answer (.register v) s)
  | none => .next (answer (.register 0) (raiseEvent .badArgument s))

/-- GET_OPERATING_MODE (R137). -/
def execGetOperatingMode (s : State) : Result :=
  .next (answer (.operatingMode (readingOf 0 (srcFields s).operatingMode) (readingOf 0 (srcFields s).lastOperatingMode)) s)

/-- GET_FAN_MODE (R138). -/
def execGetFanMode (s : State) : Result :=
  .next (answer (.fanMode (readingOf 0 (srcFields s).fanSpeed) (readingOf false (srcFields s).continuousFan)
    (readingOf false (srcFields s).fanActive)) s)

/-- GET_MASTER (R139). -/
def execGetMaster (s : State) : Result :=
  .next (answer (.master (readingOf 0 (srcFields s).masterSetpoint) (readingOf 0 (srcFields s).averageTemperature)) s)

/-- What GET_ZONE gives for a zone that exists (R140). -/
def zoneReadings (z : Zone) (s : State) : HostResult :=
  let l := latchValue (s.latches.mtz.get z)
  .zone (readingOf false ((srcFields s).zoneOnBitmap.map (fun m => bitmapZone m z)))
    (readingOf 0 ((srcFields s).zoneSetpoint.get z))
    (readingOf 0 (l.map (fun r => r.temp9)))
    (readingOf 0 (l.map (fun r => damperPct r.damper)))

/-- All readings invalid (R140). -/
def zoneReadingsInvalid : HostResult :=
  .zone (readingOf false none) (readingOf 0 none) (readingOf 0 none) (readingOf 0 none)

/-- GET_ZONE (R140). -/
def execGetZone (zone : Byte) (s : State) : Result :=
  match Zone.ofNat? zone.toNat with
  | some z => .next (answer (zoneReadings z s) s)
  | none => .next (answer zoneReadingsInvalid (raiseEvent .intentZoneRange s))

/-- GET_COMPRESSOR (R141). -/
def execGetCompressor (s : State) : Result :=
  .next (answer (.compressor (readingOf false (srcFields s).compressorMode)
    (readingOf false (srcFields s).compressorActive)) s)

/-- RECEIVING_DATA (R142). -/
def execReceivingData (s : State) : Result := .next (answer (.receivingData (receivingData s)) s)

/-- PENDING_COUNT (R143). -/
def execPendingCount (s : State) : Result := .next (answer (.pendingCount (BitVec.ofNat 8 (pendingSlots s))) s)

/-- A selector not in R59's table, or a known one with the wrong arguments: BAD_ARGUMENT, no other effect (R145). -/
def execUnassignedSelector (_sel : Byte) (_args : List Byte) (s : State) : Result := .next (raiseEvent .badArgument s)

end Sys2Proof.Machine
end

