-- ==== Sys2Proof/Machine/Arbiter.lean ====
section
/-! DEFINITION. The transmit arbiter (43_scheduler_arbiter R113 to R115) and what a tick sends (R105, steps 2 to 5). -/

namespace Sys2Proof.Machine

/-- `HighestPending()` (R113). -/
def highestPending (s : State) : Option SlotId := slotOrder.find? (slotPending s)

/-- The frame a slot generates from its value (R114). -/
def slotFrame (s : State) : SlotId → List Byte
  | .opMode => genOperatingMode s.slots.opMode.value
  | .zoneState => genZoneState s.slots.zoneState.value
  | .fanMode => genFanMode s.slots.fanMode.value
  | .masterSp => genMasterSetpoint s.slots.masterSp.value
  | .customSp => genCustomZoneSetpoint s.slots.customSp.value
  | .mtz z => genMtz (s.slots.mtz.get z).value

/-- The slots with the pending flag of one cleared (R114). -/
def clearPending (v : Slots) : SlotId → Slots
  | .opMode => { v with opMode := dequeue v.opMode }
  | .zoneState => { v with zoneState := dequeue v.zoneState }
  | .fanMode => { v with fanMode := dequeue v.fanMode }
  | .masterSp => { v with masterSp := dequeue v.masterSp }
  | .customSp => { v with customSp := dequeue v.customSp }
  | .mtz z => { v with mtz := v.mtz.set z (dequeue (v.mtz.get z)) }

/-- A drain's times: the attempt, and the command or the data send (R114). -/
def stampDrain (k : SlotId) (now : Word) (t : Timing) : Timing :=
  let t := { t with windowUsed := true, eosFlag := false, attSeen := true, tAtt := now }
  match k with
  | .opMode | .zoneState | .fanMode | .masterSp | .customSp => { t with cmdSeen := true, tCmd := now }
  | .mtz _ => { t with dataSeen := true, tData := now }

/-- `Drain(k)` (R114). -/
def drain (k : SlotId) (s : State) : State :=
  let bytes := slotFrame s k
  let s := txStart bytes { s with slots := clearPending s.slots k }
  { s with timing := stampDrain k s.now s.timing }

/-- The setpoint a response carries: the desired one clamped to the latched range, else the latched one (R115). -/
def responseSp (z : Zone) (s : State) : Byte :=
  let m := (s.latches.mtz.get z).value
  if s.emu.desiredValid.get z then
    BitVec.ofInt 8 (clamp (s.emu.desiredSp.get z).toNat m.min.toNat m.max.toNat)
  else m.sp.setWidth 8

/-- The record of the reactive response for a zone (R115). -/
def responseFields (z : Zone) (s : State) : WallFields :=
  { sp := responseSp z s
    on := (s.latches.mtz.get z).value.zoneOn
    opn := false
    config := false
    init := false
    unk := 0
    low10 := low10OfTemp (s.emu.emuTemp.get z)
    zone := BitVec.ofNat 4 z.number
    csumOk := true }

/-- `SendResponse(z)` (R115). -/
def sendResponse (z : Zone) (s : State) : State :=
  txStart (genWall (responseFields z s)) { s with respPending := s.respPending.set z false }

/-- The lowest zone that owes a response (R105, step 4). -/
def firstOwed (s : State) : Option Zone := Zone.all.find? (fun z => s.respPending.get z)

/-- The conditions of a drain: a quiet window or the end of a sequence, the spacing, an unused window (R105, step 5). -/
def mayDrain (s : State) : Bool := (quiet s || s.timing.eosFlag) && spacingOk s && !s.timing.windowUsed

/-- Step 5 of a tick (R105). -/
def tickDrain (s : State) : State :=
  if mayDrain s then
    match highestPending s with
    | some k => drain k s
    | none => s
  else s

/-- Steps 2 to 5 of a tick (R105): at most one transmission. -/
def tickSend (s : State) : State :=
  if s.tx.txBusy then s
  else if 0 < s.framer.len then s
  else
    match firstOwed s with
    | some z => sendResponse z s
    | none => tickDrain s

end Sys2Proof.Machine
end

