-- ==== Sys2Proof/Machine/Broadcasts.lean ====
section
/-! DEFINITION. The broadcasts, received (42_frame_types R86, R103): a StateMessage or StateMessage2 reaches its latch unless the
debounce suppresses it; any of them may end the sequence. -/

namespace Sys2Proof.Machine

/-- The effect of a StateMessage or StateMessage2 on its latch (R103): suppressed while `debounceActive()`. -/
def latchUnlessDebounced (latch : State → State) (s : State) : State :=
  if debounceActive s then raiseEvent .debounceSuppressed s else latch s

/-- `smLatch` holds the bytes (R103). -/
def latchSm (bytes : List Byte) (s : State) : State := { s with latches := { s.latches with sm := latched bytes } }

/-- `sm2Latch` holds the bytes (R103). -/
def latchSm2 (bytes : List Byte) (s : State) : State := { s with latches := { s.latches with sm2 := latched bytes } }

/-- StateMessage received (R86, R103). -/
def applyStateMessage (bytes : List Byte) (s : State) : State :=
  markFinal .stateMessage (latchUnlessDebounced (latchSm bytes) (countFrame (refreshLiveness s)))

/-- StateMessage2 received (R86, R103). -/
def applyStateMessage2 (bytes : List Byte) (s : State) : State :=
  markFinal .stateMessage2 (latchUnlessDebounced (latchSm2 bytes) (countFrame (refreshLiveness s)))

/-- Broadcast(k) received: accepted, not latched (R86, R103). -/
def applyBroadcast (k : Nat) (_bytes : List Byte) (s : State) : State :=
  markFinal (.broadcast k) (countFrame (refreshLiveness s))

/-- The meaning of StateMessage. -/
def execStateMessage (bytes : List Byte) (s : State) : Result := .next (applyStateMessage bytes s)

/-- The meaning of StateMessage2. -/
def execStateMessage2 (bytes : List Byte) (s : State) : Result := .next (applyStateMessage2 bytes s)

/-- The meaning of Broadcast(k). -/
def execBroadcast (k : Nat) (bytes : List Byte) (s : State) : Result := .next (applyBroadcast k bytes s)

end Sys2Proof.Machine
end

