-- ==== Sys2Proof/Machine/CommandFrames.lean ====
section
/-! DEFINITION. The five received command frames and the Unknown frame (42_frame_types sections 2 and 6). A command frame is
parsed (`parseCommand`) and counted; it changes no other state (R86, R87). -/

namespace Sys2Proof.Machine

/-- An accepted command frame: liveness, the frame counter, nothing else (R82, R86, R87). -/
def acceptCommand (s : State) : State := countFrame (refreshLiveness s)

/-- MasterSetpoint received (R87). -/
def applyMasterSetpoint (_sp : Byte) (s : State) : State := acceptCommand s

/-- FanMode received (R87). -/
def applyFanMode (_v : Byte) (s : State) : State := acceptCommand s

/-- OperatingMode received (R87); a reserved code raises no event (R57). -/
def applyOperatingMode (_mode : Byte) (s : State) : State := acceptCommand s

/-- ZoneState received (R87). -/
def applyZoneState (_bitmap : Byte) (s : State) : State := acceptCommand s

/-- CustomZoneSetpoint received (R87); a zone outside 1..8 raises no event. -/
def applyCustomZoneSetpoint (_zone _sp : Byte) (s : State) : State := acceptCommand s

/-- An Unknown frame: liveness, and the event of its cause (R81, R83, R104). -/
def applyUnknown (cause : DropCause) (_bytes : List Byte) (s : State) : State :=
  match cause with
  | .unknownTag => raiseEvent .unknownTag (refreshLiveness s)
  | .lengthMismatch => raiseEvent .lengthMismatch (refreshLiveness s)

/-- The meaning of MasterSetpoint. -/
def execMasterSetpoint (sp : Byte) (s : State) : Result := .next (applyMasterSetpoint sp s)

/-- The meaning of FanMode. -/
def execFanMode (v : Byte) (s : State) : Result := .next (applyFanMode v s)

/-- The meaning of OperatingMode. -/
def execOperatingMode (mode : Byte) (s : State) : Result := .next (applyOperatingMode mode s)

/-- The meaning of ZoneState. -/
def execZoneState (bitmap : Byte) (s : State) : Result := .next (applyZoneState bitmap s)

/-- The meaning of CustomZoneSetpoint. -/
def execCustomZoneSetpoint (zone sp : Byte) (s : State) : Result := .next (applyCustomZoneSetpoint zone sp s)

/-- The meaning of Unknown. -/
def execUnknown (cause : DropCause) (bytes : List Byte) (s : State) : Result := .next (applyUnknown cause bytes s)

end Sys2Proof.Machine
end

