-- ==== Sys2Proof/Machine/ZoneFrames.lean ====
section
/-! DEFINITION. The two zone frames, received: the zone check, the checksum check and the effect (42_frame_types R81, R84, R85,
R94, R100). -/

namespace Sys2Proof.Machine

/-- The record of a received wall frame (R93, R94). -/
def wallRecord (zone : BitVec 4) (f : WallBits) (ok : Bool) : WallFields := { toWallBits := f, zone := zone, csumOk := ok }

/-- The record of a received master frame (R97, R100). -/
def mtzRecord (zone : BitVec 4) (f : MtzBits) (ok : Bool) : MtzFields := { toMtzBits := f, zone := zone, csumOk := ok }

/-- The checks of a zone frame after its length: the zone, then the checksum, which gates the effect only when CSUM_REJECT is 1
(R81, R84, R85). An accepted frame is counted before its effect (R86). -/
def checkZoneFrame (zone : BitVec 4) (ok : Bool) (effect : Zone → State → State) (s : State) : State :=
  match Zone.ofNat? zone.toNat with
  | none => raiseEvent .rxZoneRange s
  | some z =>
    if ok then effect z (countFrame s)
    else if csumReject s then raiseEvent .checksumMismatch s
    else effect z (countFrame (raiseEvent .checksumMismatch s))

/-- `ApplyWall(f, ok)`: the latch of the zone holds the record (R94). -/
def latchWall (z : Zone) (r : WallFields) (s : State) : State :=
  { s with latches := { s.latches with zw := s.latches.zw.set z (latched r) } }

/-- `ApplyMtz(f, ok)`: the latch of the zone holds the record, and a controlled zone with a known temperature owes a response
(R100). -/
def latchMtz (z : Zone) (r : MtzFields) (s : State) : State :=
  { s with
    latches := { s.latches with mtz := s.latches.mtz.set z (latched r) }
    respPending :=
      if s.emu.controlled.get z && s.emu.emuTempValid.get z then s.respPending.set z true else s.respPending }

/-- ZoneWallController received (R81, R94). -/
def applyZoneWallController (zone : BitVec 4) (f : WallBits) (csum : Byte) (s : State) : State :=
  let ok := csum == checksum (packWallBits zone f)
  checkZoneFrame zone ok (fun z => latchWall z (wallRecord zone f ok)) (refreshLiveness s)

/-- ZoneMasterController received (R81, R100). -/
def applyZoneMasterController (zone : BitVec 4) (f : MtzBits) (csum : Byte) (s : State) : State :=
  let ok := csum == checksum (packMtzBits zone f)
  checkZoneFrame zone ok (fun z => latchMtz z (mtzRecord zone f ok)) (refreshLiveness s)

/-- The meaning of ZoneWallController. -/
def execZoneWallController (zone : BitVec 4) (f : WallBits) (csum : Byte) (s : State) : Result :=
  .next (applyZoneWallController zone f csum s)

/-- The meaning of ZoneMasterController. -/
def execZoneMasterController (zone : BitVec 4) (f : MtzBits) (csum : Byte) (s : State) : Result :=
  .next (applyZoneMasterController zone f csum s)

end Sys2Proof.Machine
end

