-- ==== Sys2Proof/Machine/Process.lean ====
section
/-! DEFINITION. `ProcessFrame`: an echo frame is dropped with its event, a peer frame is decoded and takes the effect of its type
(42_frame_types R81). -/

namespace Sys2Proof.Machine

/-- The effect of a peer frame, by its type (R81, R86). -/
def applyFrame : Frame → State → State
  | .masterSetpoint sp, s => applyMasterSetpoint sp s
  | .fanMode v, s => applyFanMode v s
  | .operatingMode mode, s => applyOperatingMode mode s
  | .zoneState bitmap, s => applyZoneState bitmap s
  | .customZoneSetpoint zone sp, s => applyCustomZoneSetpoint zone sp s
  | .stateMessage bytes, s => applyStateMessage bytes s
  | .stateMessage2 bytes, s => applyStateMessage2 bytes s
  | .broadcast k bytes, s => applyBroadcast k bytes s
  | .zoneWallController zone f csum, s => applyZoneWallController zone f csum s
  | .zoneMasterController zone f csum, s => applyZoneMasterController zone f csum s
  | .unknown cause bytes, s => applyUnknown cause bytes s

/-- `ProcessFrame(bytes, echo)` (R81): ECHO_FRAME and no other effect for an echo frame (R67). -/
def processFrame (bytes : List Byte) (echo : Bool) (s : State) : State :=
  if echo then raiseEvent .echoFrame s else applyFrame (decodeFrame s.params.bcastRules bytes) s

end Sys2Proof.Machine
end

