-- ==== Sys2Proof/Machine/HostWrites.lean ====
section
/-! DEFINITION. The host writes that liveness does not gate: zone emulation, the master override, status, configuration and
PROCESS_MESSAGE (44_host_ops section 3). -/

namespace Sys2Proof.Machine

/-- SET_ZONE_CURRENT_TEMPERATURE (R131). -/
def execSetZoneCurrentTemperature (zone : Byte) (d : Half) (s : State) : Result :=
  withZone zone s fun z s =>
    .next { s with emu := { s.emu with
      emuTemp := s.emu.emuTemp.set z d
      emuTempValid := s.emu.emuTempValid.set z true } }

/-- SET_CONTROL_ZONE (R132): giving a zone up cancels the response it owes (R171). -/
def execSetControlZone (zone : Byte) (en : Bool) (s : State) : Result :=
  withZone zone s fun z s =>
    .next { s with
      emu := { s.emu with controlled := s.emu.controlled.set z en }
      respPending := if en then s.respPending else s.respPending.set z false }

/-- SEND_ZONE_MASTER_OVERRIDE (R133): the record takes the zone of the argument, and its `csumOk` is 1 (R26). -/
def execSendZoneMasterOverride (zone : Byte) (f : MtzBits) (s : State) : Result :=
  withZone zone s fun z s =>
    .next { s with slots := { s.slots with
      mtz := s.slots.mtz.set z (enqueue (mtzRecord (BitVec.ofNat 4 z.number) f true)) } }

/-- CLEAR_STATUS (R134). -/
def execClearStatus (mask : Half) (s : State) : Result :=
  .next { s with regs := { s.regs with status := s.regs.status &&& ~~~mask &&& 0x07FF#16 } }

/-- WRITE_CONFIG (R135). -/
def execWriteConfig (v : Byte) (s : State) : Result :=
  .next { s with regs := { s.regs with config := v &&& 0x01#8 } }

/-- PROCESS_MESSAGE (R136): a peer frame from outside; the framer is not touched. `n` has the nine bits that R59's range
1..P_FRAME_CAP needs (assumption 10). A byte list of another length than `n` is a wrong argument count (R145). -/
def execProcessMessage (n : BitVec 9) (bytes : List Byte) (s : State) : Result :=
  withDomain (decide (1 ≤ n.toNat) && decide (n.toNat ≤ s.params.frameCap) && bytes.length == n.toNat) s fun s =>
    .next (processFrame bytes false s)

end Sys2Proof.Machine
end

