-- ==== Sys2Proof/Machine/Intents.lean ====
section
/-! DEFINITION. The eight gated write intents (44_host_ops section 2). Each checks liveness, zone, domain and context in the order
of R119, and fills slots only (R120). -/

namespace Sys2Proof.Machine

/-- SET_SYSTEM_ON (R123): a code above 7 is no context. -/
def execSetSystemOn (on : Bool) (s : State) : Result :=
  gated s fun s =>
    withContext ((base s.slots.opMode (srcFields s).operatingMode).bind opModeOfCode) s fun m s =>
      .next { s with slots := { s.slots with opMode := enqueue (opModeCode (if on then onTable m else offTable m)) } }

/-- SET_OPERATING_MODE (R124). -/
def execSetOperatingMode (mode : Byte) (s : State) : Result :=
  gated s fun s =>
    withDomain (decide (mode.toNat ≤ 7)) s fun s =>
      .next { s with slots := { s.slots with opMode := enqueue mode } }

/-- SET_FAN_SPEED: the continuous flag is kept (R125). -/
def execSetFanSpeed (speed : Byte) (s : State) : Result :=
  gated s fun s =>
    withDomain (decide (speed.toNat ≤ 3)) s fun s =>
      withContext (if s.slots.fanMode.pending then some (fanByteCont s.slots.fanMode.value)
          else (srcFields s).continuousFan) s fun c s =>
        .next { s with slots := { s.slots with fanMode := enqueue (fanByte c (speed.extractLsb' 0 2)) } }

/-- SET_FAN_SPEED_ABSOLUTE (R126). -/
def execSetFanSpeedAbsolute (speed cont : Byte) (s : State) : Result :=
  gated s fun s =>
    withDomain (decide (speed.toNat ≤ 3) && decide (cont.toNat ≤ 1)) s fun s =>
      .next { s with slots := { s.slots with
        fanMode := enqueue (fanByte (cont.getLsbD 0) (speed.extractLsb' 0 2)) } }

/-- SET_CONTINUOUS_FAN_MODE: the speed is kept (R127). -/
def execSetContinuousFanMode (cont : Byte) (s : State) : Result :=
  gated s fun s =>
    withDomain (decide (cont.toNat ≤ 1)) s fun s =>
      withContext (if s.slots.fanMode.pending then some (fanByteSpeed s.slots.fanMode.value)
          else (srcFields s).fanSpeed) s fun speed s =>
        .next { s with slots := { s.slots with fanMode := enqueue (fanByte (cont.getLsbD 0) speed) } }

/-- SET_MASTER_SETPOINT (R128). -/
def execSetMasterSetpoint (d : Half) (s : State) : Result :=
  gated s fun s =>
    .next { s with slots := { s.slots with
      masterSp := enqueue (BitVec.ofInt 8 (clampSp (spFromTemp d.toInt))) } }

/-- SET_ZONE_ON (R129). -/
def execSetZoneOn (zone : Byte) (on : Bool) (s : State) : Result :=
  gated s fun s =>
    withZone zone s fun z s =>
      withContext (base s.slots.zoneState (srcFields s).zoneOnBitmap) s fun m s =>
        .next { s with slots := { s.slots with zoneState := enqueue (bitmapSet m z on) } }

/-- The signed distance, in half-degrees, by which a target leaves [lo, hi]; none inside (R130). -/
def rangeExcess (tgt lo hi : Int) : Option Int :=
  if tgt > hi then some (tgt - hi) else if tgt < lo then some (tgt - lo) else none

/-- The master shift SET_ZONE_SETPOINT_TEMPERATURE needs: only with `adjustMaster`, a valid latch and a target outside the zone's
range (R130). -/
def masterShift (z : Zone) (tgt : Int) (adjustMaster : Bool) (s : State) : Option Int :=
  let l := s.latches.mtz.get z
  if adjustMaster && l.valid then rangeExcess tgt l.value.min.toNat l.value.max.toNat else none

/-- The desired setpoint of a zone is stored; a zone that is not controlled also queues it (R130). -/
def storeDesired (z : Zone) (tgt : Int) (s : State) : State :=
  { s with
    emu := { s.emu with
      desiredSp := s.emu.desiredSp.set z (BitVec.ofInt 8 tgt)
      desiredValid := s.emu.desiredValid.set z true }
    slots := { s.slots with
      customSp :=
        if s.emu.controlled.get z then s.slots.customSp
        else enqueue { zone := BitVec.ofNat 4 z.number, sp := BitVec.ofInt 8 tgt } } }

/-- SET_ZONE_SETPOINT_TEMPERATURE (R130): with the master shift, an absent master setpoint drops the whole operation. -/
def execSetZoneSetpointTemperature (zone : Byte) (d : Half) (adjustMaster : Bool) (s : State) : Result :=
  gated s fun s =>
    withZone zone s fun z s =>
      let tgt := clampSp (spFromTemp d.toInt)
      match masterShift z tgt adjustMaster s with
      | none => .next (storeDesired z tgt s)
      | some delta =>
        withContext (base s.slots.masterSp (srcFields s).masterSetpoint) s fun b s =>
          .next (storeDesired z tgt { s with slots := { s.slots with
            masterSp := enqueue (BitVec.ofInt 8 (clampSp (b.toNat + delta))) } })

end Sys2Proof.Machine
end

