-- ==== Sys2Proof/Machine/Dispatch.lean ====
section
/-! DEFINITION. The dispatch: one arm per constructor of Instr. -/

namespace Sys2Proof.Machine

def exec (i : Instr) (s : State) : Host.Outcome State Fault Refusal :=
  match i with
  | .masterSetpoint sp => Sys2Proof.Machine.execMasterSetpoint sp s
  | .fanMode v => Sys2Proof.Machine.execFanMode v s
  | .operatingMode mode => Sys2Proof.Machine.execOperatingMode mode s
  | .zoneState bitmap => Sys2Proof.Machine.execZoneState bitmap s
  | .customZoneSetpoint zone sp => Sys2Proof.Machine.execCustomZoneSetpoint zone sp s
  | .stateMessage bytes => Sys2Proof.Machine.execStateMessage bytes s
  | .stateMessage2 bytes => Sys2Proof.Machine.execStateMessage2 bytes s
  | .broadcast k bytes => Sys2Proof.Machine.execBroadcast k bytes s
  | .zoneWallController zone f csum => Sys2Proof.Machine.execZoneWallController zone f csum s
  | .zoneMasterController zone f csum => Sys2Proof.Machine.execZoneMasterController zone f csum s
  | .unknown cause bytes => Sys2Proof.Machine.execUnknown cause bytes s
  | .setSystemOn on => Sys2Proof.Machine.execSetSystemOn on s
  | .setOperatingMode mode => Sys2Proof.Machine.execSetOperatingMode mode s
  | .setFanSpeed speed => Sys2Proof.Machine.execSetFanSpeed speed s
  | .setFanSpeedAbsolute speed cont => Sys2Proof.Machine.execSetFanSpeedAbsolute speed cont s
  | .setContinuousFanMode cont => Sys2Proof.Machine.execSetContinuousFanMode cont s
  | .setMasterSetpoint d => Sys2Proof.Machine.execSetMasterSetpoint d s
  | .setZoneOn zone on => Sys2Proof.Machine.execSetZoneOn zone on s
  | .setZoneSetpointTemperature zone d adjustMaster => Sys2Proof.Machine.execSetZoneSetpointTemperature zone d adjustMaster s
  | .setZoneCurrentTemperature zone d => Sys2Proof.Machine.execSetZoneCurrentTemperature zone d s
  | .setControlZone zone en => Sys2Proof.Machine.execSetControlZone zone en s
  | .sendZoneMasterOverride zone f => Sys2Proof.Machine.execSendZoneMasterOverride zone f s
  | .clearStatus mask => Sys2Proof.Machine.execClearStatus mask s
  | .writeConfig v => Sys2Proof.Machine.execWriteConfig v s
  | .processMessage n bytes => Sys2Proof.Machine.execProcessMessage n bytes s
  | .readReg n => Sys2Proof.Machine.execReadReg n s
  | .getOperatingMode => Sys2Proof.Machine.execGetOperatingMode s
  | .getFanMode => Sys2Proof.Machine.execGetFanMode s
  | .getMaster => Sys2Proof.Machine.execGetMaster s
  | .getZone zone => Sys2Proof.Machine.execGetZone zone s
  | .getCompressor => Sys2Proof.Machine.execGetCompressor s
  | .receivingData => Sys2Proof.Machine.execReceivingData s
  | .pendingCount => Sys2Proof.Machine.execPendingCount s
  | .unassignedSelector sel args => Sys2Proof.Machine.execUnassignedSelector sel args s

end Sys2Proof.Machine
end

