-- ==== Sys2Proof/Machine/Events.lean ====
section
/-! DEFINITION. The input events (10_state R15): RxByte (40_framer R63), Tick (R64, R105), TxComplete (R117), Host (R59) and Reset
(R160). An event reaches `exec` in two ways: a host operation is decoded and executed, and a completed peer frame takes the
effect of its instruction (`exec_frame` in Laws says that they are one). -/

namespace Sys2Proof.Machine

/-- `CompleteFrame()`: the buffer is emptied and its frame processed (R65). -/
def completeFrame (s : State) : Result :=
  match frameBytes s with
  | none => .fault (.bufferAddress s.params.frameCap)
  | some bytes =>
    .next (processFrame bytes s.framer.echoAcc { s with framer := { s.framer with len := 0, echoAcc := false } })

/-- The frame in progress is completed if it has timed out (R61). -/
def closeIfSilent (s : State) : Result :=
  if 0 < s.framer.len && silent s then completeFrame s else .next s

/-- Every byte is noted; a byte of a peer opens a new window (R63). -/
def noteByte (s : State) : State :=
  { s with timing :=
      { s.timing with
        rxSeen := true
        tRx := s.now
        windowUsed := if isEchoByte s then s.timing.windowUsed else false
        eosFlag := if isEchoByte s then s.timing.eosFlag else false } }

/-- The byte is stored, or overflows the buffer (R63, R66). -/
def storeByte (b : Byte) (s : State) : Result :=
  if s.framer.len = s.params.frameCap then
    .next (raiseEvent .frameTooLong { s with framer := { s.framer with len := 0, echoAcc := false } })
  else
    match memWrite s s.framer.len b with
    | none => .fault (.bufferAddress s.framer.len)
    | some s' =>
      .next { s' with framer := { s'.framer with
        echoAcc := if s.framer.len = 0 then isEchoByte s else s.framer.echoAcc || isEchoByte s
        len := s.framer.len + 1
        tLast := s.now } }

/-- `RxByte(t, b)` (R63). -/
def rxByte (t : Word) (b : Byte) (s : State) : Result :=
  andThen (closeIfSilent { s with now := t }) fun s => storeByte b (noteByte s)

/-- `Tick(t)` (R105). -/
def tick (t : Word) (s : State) : Result :=
  andThen (closeIfSilent { s with now := t }) fun s => .next (tickSend s)

/-- `TxComplete(t)`: ignored unless a frame is in flight (R117). -/
def txComplete (t : Word) (s : State) : State :=
  if s.tx.txBusy then
    { s with
      now := t
      tx := { s.tx with txBusy := false, de := false }
      timing := { s.timing with txEndSeen := true, tTxEnd := t } }
  else s

/-- `Host(t, op, args)`: the operation is decoded and executed, at time t (R15, R20, R59; assumption 8). -/
def hostOp (t : Word) (sel : Byte) (args : List Byte) (s : State) : Result :=
  exec (decodeHost sel args) { s with now := t }

/-- `Reset`: every element at its reset value; the parameters stay, and so do the events still to come (R160). -/
def resetEvent (s : State) : State := { State.resetWith s.params with inputs := s.inputs }

/-- One input event, applied atomically (R15, R39). -/
def applyEvent : Event → State → Result
  | .rxByte t b, s => rxByte t b s
  | .tick t, s => tick t s
  | .txComplete t, s => .next (txComplete t s)
  | .host t sel args, s => hostOp t sel args s
  | .reset, s => .next (resetEvent s)

/-- The output ports at the start of an event: no strobe, no result (R17; assumption 4). -/
def clearOutputs (s : State) : State := { s with out := { txStrobe := false, hostResult := .none } }

/-- The next input event is applied; without one the block waits (R41; assumption 3). -/
def nextEvent (s : State) : Result :=
  match s.inputs with
  | [] => .next s
  | e :: rest => applyEvent e (clearOutputs { s with inputs := rest })

/-- An instruction's bytes placed where the block takes its next instruction from: a host operation as the next event, a frame in
the frame buffer with its silence elapsed and a tick as the next event (assumption 7). -/
def presentBytes (port : Port) (bytes : List Byte) (s : State) : State :=
  match port with
  | .host => { s with inputs := .host s.now (bytes.headD 0) bytes.tail :: s.inputs }
  | .bus =>
    { s with
      framer :=
        { buf := memoryWriteAll s.framer.buf 0 bytes
          len := bytes.length
          tLast := s.now - BitVec.ofNat 32 Config.tSil
          echoAcc := false }
      inputs := .tick s.now :: s.inputs }

end Sys2Proof.Machine
end

