-- ==== Sys2Proof/Machine/Step.lean ====
section
/-! DEFINITION. The step, and where a table word is placed for it. -/

namespace Sys2Proof.Machine

/-- One step: the next input event (R15, R39). -/
def step (s : State) : Host.Outcome State Fault Refusal := nextEvent s

/-- The state with a table word's instruction as the one the next step runs; a word without bits changes nothing. -/
def State.withFetchWord (s : State) (nbits w : Nat) : State :=
  match layWord s.params.bcastRules nbits w with
  | none => s
  | some (port, bytes) => presentBytes port bytes s

end Sys2Proof.Machine
end

