-- ==== Sys2Proof/Safety.lean ====
section
/-! DEFINITION. What a safe state and a lawful environment are: the invariant that holds at reset and that every step keeps, and the
contract of the environment (20_memory R41, 43_scheduler_arbiter R117). No definition of the machine depends on this file. -/

namespace Sys2Proof.Machine

/-- The machine goes on. -/
def Runs (o : Host.Outcome State Fault Refusal) : Prop := ∃ t, o = .next t

/-- A half-degree setpoint as the host intents generate it: 16.0 to 30.0 degrees (R128). -/
abbrev InSetpointRange (v : Byte) : Prop := 32 ≤ v.toNat ∧ v.toNat ≤ 60

/-- The invariant of the machine. Its fields say, in order: the parameters are in their ranges (R3, R5, R10, R12); the two buffers are
canonical and inside their address ranges, and their fill levels too (R21, R34, R116); the write-enable only drives during a
transmission and only if it exists (R116, R118); the reserved bits read 0 (R29, R30); what a slot holds is a frame the host intents
can generate (R89, R90, R128, R130, R133); a zone record stands in the latch of its zone (R94, R100); a response is owed only for a
controlled zone with a temperature and a poll (R100, R132); the broadcast latches have their length (R27); the end-of-sequence flag
needs a final type (R107); a stored setpoint is in range (R130); an attempt is a command or a data send, and only an attempt uses a
window (R114). -/
structure Inv (s : State) : Prop where
  params : s.params.valid = true
  bufWf : memoryWf s.framer.buf = true
  bufBelow : memoryBelow s.params.frameCap s.framer.buf = true
  lenLe : s.framer.len ≤ s.params.frameCap
  txBufWf : memoryWf s.tx.txBuf = true
  txBufBelow : memoryBelow Config.txCap s.tx.txBuf = true
  txLenLe : s.tx.txLen ≤ 7
  deBusy : s.tx.de = true → s.tx.txBusy = true
  deHas : s.tx.de = true → s.params.hasDe = true
  statusReserved : s.regs.status &&& 0xF800#16 = 0
  configReserved : s.regs.config &&& 0xFE#8 = 0
  opModeCode : s.slots.opMode.value.toNat ≤ 7
  fanReserved : fanByteReserved s.slots.fanMode.value = 0
  masterRange : s.slots.masterSp.pending = true → InSetpointRange s.slots.masterSp.value
  customZone : s.slots.customSp.pending = true → ∃ z : Zone, s.slots.customSp.value.zone.toNat = z.number
  customRange : s.slots.customSp.pending = true → InSetpointRange s.slots.customSp.value.sp
  mtzSlotZone : ∀ z, (s.slots.mtz.get z).pending = true → (s.slots.mtz.get z).value.zone.toNat = z.number
  zwZone : ∀ z, (s.latches.zw.get z).valid = true → (s.latches.zw.get z).value.zone.toNat = z.number
  mtzZone : ∀ z, (s.latches.mtz.get z).valid = true → (s.latches.mtz.get z).value.zone.toNat = z.number
  owedControlled : ∀ z, s.respPending.get z = true → s.emu.controlled.get z = true
  owedTemp : ∀ z, s.respPending.get z = true → s.emu.emuTempValid.get z = true
  owedPoll : ∀ z, s.respPending.get z = true → (s.latches.mtz.get z).valid = true
  smLength : s.latches.sm.value.length = 23
  sm2Length : s.latches.sm2.value.length = 18
  eosFinal : s.timing.eosFlag = true → s.params.finalType ≠ none
  desiredRange : ∀ z, s.emu.desiredValid.get z = true → InSetpointRange (s.emu.desiredSp.get z)
  attemptKind : s.timing.attSeen = (s.timing.cmdSeen || s.timing.dataSeen)
  windowAttempt : s.timing.windowUsed = true → s.timing.attSeen = true

/-- The time an event carries (R15). -/
def eventTime : Event → Option Word
  | .rxByte t _ => some t
  | .tick t => some t
  | .txComplete t => some t
  | .host t _ _ => some t
  | .reset => none

/-- The event is a tick of the time base. -/
def isTick : Event → Bool
  | .tick _ => true
  | .rxByte _ _ => false
  | .txComplete _ => false
  | .host _ _ _ => false
  | .reset => false

/-- Where the environment stands in its sequence: the time of its last event, and whether that millisecond has had a tick. -/
structure EnvClock where
  time : Word
  ticked : Bool
deriving DecidableEq, Repr

/-- R41's contract for the events that follow the clock: t stands, or moves to the next millisecond once this one has had a tick; so t
never decreases and no millisecond is without a tick. The time is that of the last event, ignored or not. After a Reset, which carries
no t, it either goes on or starts again at 0: the spec leaves that open, and the contract takes both (assumption 24). -/
def lawfulTimes : EnvClock → List Event → Bool
  | _, [] => true
  | c, e :: rest =>
    match eventTime e with
    | none => lawfulTimes c rest || lawfulTimes ⟨0, false⟩ rest
    | some t =>
      (t == c.time && lawfulTimes ⟨t, c.ticked || isTick e⟩ rest)
        || (t == c.time + 1 && c.ticked && lawfulTimes ⟨t, isTick e⟩ rest)

/-- The environment's contract for the events a state is still to take: their times are lawful (R41), and each end of a transmission
comes no earlier than the wire allows (R117). The machine takes events that break it, too (assumption 9). -/
def Admissible (c : EnvClock) (s : State) : Prop :=
  lawfulTimes c s.inputs = true ∧
    ∀ (n : Nat) (mid : State) (t : Word) (rest : List Event), core.run n s = .next mid →
      mid.inputs = .txComplete t :: rest → mid.tx.txBusy = true → txLowerBound mid.tx.txLen ≤ (t - mid.tx.txStart).toNat

/-- The event is a byte that is not an echo byte when it arrives at `s`: the only event but reset that opens a new window (R109). -/
def OpensWindow (s : State) : Event → Prop
  | .rxByte t _ => isEchoByte { s with now := t } = false
  | .reset => True
  | .tick _ => False
  | .txComplete _ => False
  | .host _ _ _ => False

end Sys2Proof.Machine
end

