-- ==== Sys2Proof/Certificates/Slice0/Obligations.lean ====
section
/-! DEFINITION. The statements for the provers. Each docstring names the rules it formalises. Every statement about all states is one
about all parameter values, since a state carries its parameters (assumption 1). -/

open Sys2Proof Sys2Proof.Machine

/-! ### Encoding -/

/-- Decoding the encoding of a well-formed instruction gives it back, for every instruction, every operand and every list of broadcast
rules (R45, R51, R54, R59, R80). The layout of host arguments is the model's (assumption 5). -/
def Obligations.DecodeInvertsEncode : Prop :=
  ∀ (rules : List BcastRule) (cap : Nat) (i : Instr), WellFormed rules cap i = true → decode rules i.port (encode i) = i

/-- Encoding what a frame decodes to gives its bytes back: no bit of any frame is dropped (R51, R54, R57). -/
def Obligations.EncodeInvertsDecodeFrame : Prop :=
  ∀ (rules : List BcastRule) (b : List Byte), encode (decodeFrame rules b).toInstr = b

/-- The tag map (R46, R80): a command tag gives its command row whatever the broadcast rules say; any other tag gives the first
broadcast rule that matches it; a tag no broadcast rule matches gives a zone row by its high nibble, or nothing. That 0x3E is among
the other tags is the model's choice (assumption 25). -/
def Obligations.TagsClassifyFirstMatch : Prop :=
  ∀ (rules : List BcastRule) (tag : Byte),
    (isCommandTag tag = true → ∃ r ∈ commandRules, r.value = tag ∧ classify rules tag = some r) ∧
    (∀ r, isCommandTag tag = false → rules.find? (fun r => r.hits tag) = some r →
      classify rules tag = some ⟨r.mask, r.value, .bcast r.type, r.length⟩) ∧
    (isCommandTag tag = false → rules.find? (fun r => r.hits tag) = none →
      classify rules tag =
        if tag.toNat / 16 = 0xC then some ⟨0xF0, 0xC0, .zoneWallController, 5⟩
        else if tag.toNat / 16 = 0x8 then some ⟨0xF0, 0x80, .zoneMasterController, 7⟩
        else none)

/-- R96: a wall frame with a correct checksum is regenerated byte for byte, and one with a bad checksum with the correct one. -/
def Obligations.GenWallOfParseWall : Prop :=
  ∀ b0 b1 b2 b3 b4 : Byte, 0xC1 ≤ b0.toNat → b0.toNat ≤ 0xC8 →
    (b4 = checksum [b0, b1, b2, b3] → genWall (parseWall [b0, b1, b2, b3, b4]) = [b0, b1, b2, b3, b4]) ∧
    genWall (parseWall [b0, b1, b2, b3, b4]) = [b0, b1, b2, b3, checksum [b0, b1, b2, b3]]

/-- R102: a master frame with a correct checksum is regenerated byte for byte. -/
def Obligations.GenMtzOfParseMtz : Prop :=
  ∀ b0 b1 b2 b3 b4 b5 b6 : Byte, 0x81 ≤ b0.toNat → b0.toNat ≤ 0x88 → b6 = checksum [b0, b1, b2, b3, b4, b5] →
    genMtz (parseMtz [b0, b1, b2, b3, b4, b5, b6]) = [b0, b1, b2, b3, b4, b5, b6]

/-- Words written out from the layouts of the spec decode to the instructions they stand for (R50, R51, R54, R59; host arguments in
the model's layout, assumption 5). -/
def Obligations.WrittenWordsDecode : Prop :=
  decode [] .bus [0x3B, 0b10000010] = .fanMode 0x82 ∧
  decode [] .bus [0xC1, 0b00101000, 0b10100000, 0b11111011, 0xDB] =
    .zoneWallController 1
      { sp := 40, on := true, opn := false, config := true, init := false, unk := 0, low10 := 0b0011111011 } 0xDB ∧
  decode [] .bus [0x87, 0b00101100, 0b01111111, 0b11100000, 0b10101000, 0b01111100, 0x4A] =
    .zoneMasterController 7
      { temp9 := 300, compMode := false, zoneOn := true, transient := true, unkA := true, damper := 7, heating := true,
        unkB := true, min := 32, fanOnly := true, unkC := false, sp := 40, compActive := false, unkD := true, max := 60 } 0x4A ∧
  decode [⟨0xFF, 0x85, .broadcast 1, 20⟩] .bus (0x85 :: List.replicate 19 0x11) =
    .broadcast 1 (0x85 :: List.replicate 19 0x11) ∧
  decode [] .bus [0x3E] = .unknown .unknownTag [0x3E] ∧
  decode [] .host [0x07, 0x03, 0x01] = .setZoneOn 3 true ∧
  decode [] .host [0x11] = .getOperatingMode ∧
  decode [] .host [0x18] = .unassignedSelector 0x18 []

/-! ### The codec -/

/-- R69: both closed forms of the checksum, for the four bytes of a wall frame and the six of a master frame. -/
def Obligations.ChecksumHasClosedForm : Prop :=
  ∀ b : List Byte, b.length = 4 ∨ b.length = 6 →
    checksum b = -(2 * b.getD 2 0) - (b.eraseIdx 2).sum - 1 ∧ checksum b = ~~~(b.getD 2 0 + b.sum)

/-- R72, R73, R74: the ROM is the three branches, evaluated exactly and rounded half away from zero, with the end values the rules
give. Ten times the upper polynomial is (7124 r^2 - 10520000 r + 2450000000) / 10^7, ten times the lower one
(-1457 r^2 - 9880000 r + 2492300000) / 10^7. -/
def Obligations.RomFollowsTheBranches : Prop :=
  (∀ raw : Int, -512 ≤ raw → raw ≤ 511 →
    tempFromRaw raw =
      if raw < -58 then rha (7124 * raw ^ 2 - 10520000 * raw + 2450000000) 10000000
      else if raw ≤ 81 then 250 - raw
      else rha (-1457 * raw ^ 2 - 9880000 * raw + 2492300000) 10000000) ∧
  tempFromRaw (-512) = 970 ∧ tempFromRaw (-59) = 310 ∧ tempFromRaw (-58) = 308 ∧ tempFromRaw 81 = 169 ∧
  tempFromRaw 82 = 167 ∧ tempFromRaw 511 = -294

/-- R75: `TempFromRaw` is strictly decreasing, so injective; its image lies in -294..970 and misses exactly the 241 values of table 3,
309 and 168 among them. -/
def Obligations.RomStrictlyDecreases : Prop :=
  (∀ r r' : Int, -512 ≤ r → r < r' → r' ≤ 511 → tempFromRaw r' < tempFromRaw r) ∧
  (∀ d : Int, -294 ≤ d → d ≤ 970 →
    ((∃ r : Int, -512 ≤ r ∧ r ≤ 511 ∧ tempFromRaw r = d) ↔ d ∉ romGaps.map Prod.fst)) ∧
  (∀ r : Int, -512 ≤ r → r ≤ 511 → -294 ≤ tempFromRaw r ∧ tempFromRaw r ≤ 970) ∧
  romGaps.length = 241 ∧ (romGaps.map Prod.fst).Nodup ∧ 309 ∈ romGaps.map Prod.fst ∧ 168 ∈ romGaps.map Prod.fst

/-- R77: the inverse is exact on the ROM's image, and misses by at most a tenth of a degree, exactly at the values of table 3. -/
def Obligations.TemperatureRoundTrips : Prop :=
  (∀ r : Int, -512 ≤ r → r ≤ 511 → rawFromTemp (tempFromRaw r) = r) ∧
  (∀ d : Int, -294 ≤ d → d ≤ 970 →
    -1 ≤ tempFromRaw (rawFromTemp d) - d ∧ tempFromRaw (rawFromTemp d) - d ≤ 1 ∧
      (tempFromRaw (rawFromTemp d) ≠ d ↔ d ∈ romGaps.map Prod.fst))

/-- R76: on every `s16`, `RawFromTemp(d)` is the linear inverse, or the exact real root with the minus sign of the branch's quadratic,
rounded half away from zero, saturated to -512..511; the discriminant is positive and the root on no rounding tie; the encoded field
is that value modulo 1024. -/
def Obligations.RawFromTempIsTheRoundedRoot : Prop :=
  (∀ (d : Int) (a b c x : ℝ), -32768 ≤ d → d ≤ 32767 →
    (a, b, c) = (if 309 ≤ d then (0.00007124, -0.1052, 24.5) else (-0.00001457, -0.0988, 24.923)) →
    x = (-b - Real.sqrt (b * b - 4 * a * (c - d / 10))) / (2 * a) →
    (rawFromTemp d =
      if 169 ≤ d ∧ d ≤ 308 then 250 - d
      else clamp (if 0 ≤ x then ⌊x + 1 / 2⌋ else -⌊-x + 1 / 2⌋) (-512) 511) ∧
    0 < b * b - 4 * a * (c - d / 10) ∧ ∀ n : ℤ, x ≠ n + 1 / 2) ∧
  ∀ d : Half, ((low10OfTemp d).toNat : Int) = rawFromTemp d.toInt % 1024

/-- R78: `SpFromTemp` is the nearest half-degree (d / 5 is never on a tie), exact on multiples of five, and not clamped. R87, R93,
R97: the setpoint views of a command, a wall frame and a master frame are `TempFromSp` of the half-degrees received. -/
def Obligations.SetpointRoundTrips : Prop :=
  (∀ d : Int, -2 ≤ 5 * spFromTemp d - d ∧ 5 * spFromTemp d - d ≤ 2) ∧ (∀ k : Int, spFromTemp (tempFromSp k) = k) ∧
  (∀ (rules : List BcastRule) (v z : Byte),
    (parseCommand (decodeFrame rules [0x3A, v])).bind commandSetpoint = some (5 * (v.toNat : Int)) ∧
    (parseCommand (decodeFrame rules [0x3F, z, v])).bind commandSetpoint = some (5 * (v.toNat : Int))) ∧
  (∀ b1 b2 b3 : Byte, wallSetpoint (parseWallBits b1 b2 b3) = 5 * (b1.toNat : Int)) ∧
  ∀ b1 b2 b3 b4 b5 : Byte,
    mtzSetpoint (parseMtzBits b1 b2 b3 b4 b5) = 5 * ((b4.toNat : Int) % 64) ∧
    mtzMinSetpoint (parseMtzBits b1 b2 b3 b4 b5) = 5 * ((b3.toNat : Int) % 64) ∧
    mtzMaxSetpoint (parseMtzBits b1 b2 b3 b4 b5) = 5 * ((b5.toNat : Int) % 64)

/-- R98: the damper percentage, saturated at position 5; the position itself is kept raw, bits 3:1 of byte 2. -/
def Obligations.DamperPercentSaturates : Prop :=
  (∀ d : BitVec 3, (damperPct d).toNat = 20 * min d.toNat 5) ∧
  ∀ b1 b2 b3 b4 b5 : Byte, (parseMtzBits b1 b2 b3 b4 b5).damper.toNat = b2.toNat / 2 % 8

/-- R99: when each class of `opClass` applies; transient and the unknown bits do not matter. -/
def Obligations.OpClassByPriority : Prop :=
  ∀ f : MtzBits,
    (opClass f = .systemOff ↔ f.compMode = false ∧ f.fanOnly = false) ∧
    (opClass f = .zoneOff ↔ (f.compMode = true ∨ f.fanOnly = true) ∧ f.zoneOn = false) ∧
    (opClass f = .fanOnly ↔ f.zoneOn = true ∧ f.fanOnly = true) ∧
    (opClass f = .standby ↔ f.compMode = true ∧ f.zoneOn = true ∧ f.fanOnly = false ∧ f.compActive = false) ∧
    (opClass f = .heating ↔
      f.compMode = true ∧ f.zoneOn = true ∧ f.fanOnly = false ∧ f.compActive = true ∧ f.heating = true) ∧
    (opClass f = .cooling ↔
      f.compMode = true ∧ f.zoneOn = true ∧ f.fanOnly = false ∧ f.compActive = true ∧ f.heating = false)

/-- R52, R53, R93: the mode and the sub-type of a wall frame, the flags they generate, and which of temperature and calibration it
carries. -/
def Obligations.WallViewsFollowFlags : Prop :=
  (∀ (f : WallBits) (m : WallMode) (t : WallSubtype), wallFlags m t = (f.on, f.opn, f.config, f.init) →
    wallMode f = m ∧ wallSubtype f = t) ∧
  (∀ f : WallBits,
    (wallMode f = .opn ↔ f.opn = true) ∧ (wallMode f = .on ↔ f.opn = false ∧ f.on = true) ∧
    (wallSubtype f = .initZone ↔ f.init = true) ∧ (wallSubtype f = .config ↔ f.init = false ∧ f.config = true) ∧
    (f.init = false → f.config = true →
      wallTemperature f = none ∧ wallCalibration f = some (BitVec.setWidth 8 f.low10).toInt) ∧
    (f.init = true ∨ f.config = false →
      wallTemperature f = some (tempFromRaw f.low10.toInt) ∧ wallCalibration f = none))

/-! ### Events, timers -/

/-- R150: raising event k sets STATUS bit k, adds one to CNT[k] modulo 2^32, and changes nothing else. The numbers k of the events, 0 to
10, are those of the table of 60_exceptions. -/
def Obligations.RaiseSetsBitAndCounts : Prop :=
  (eventCode .frameTooLong = 0 ∧ eventCode .unknownTag = 1 ∧ eventCode .lengthMismatch = 2 ∧
    eventCode .checksumMismatch = 3 ∧ eventCode .rxZoneRange = 4 ∧ eventCode .echoFrame = 5 ∧
    eventCode .debounceSuppressed = 6 ∧ eventCode .intentStale = 7 ∧ eventCode .intentZoneRange = 8 ∧
    eventCode .intentNoContext = 9 ∧ eventCode .badArgument = 10) ∧
  ∀ (k k' : EventCode) (s : State),
    (raiseEvent k s).regs.status.getLsbD (eventCode k) = true ∧
    (∀ n, n ≠ eventCode k → (raiseEvent k s).regs.status.getLsbD n = s.regs.status.getLsbD n) ∧
    counterOf (raiseEvent k s).regs.cnt k = counterOf s.regs.cnt k + 1 ∧
    (k' ≠ k → counterOf (raiseEvent k s).regs.cnt k' = counterOf s.regs.cnt k') ∧
    raiseEvent k s =
      { s with regs := { s.regs with status := (raiseEvent k s).regs.status, cnt := (raiseEvent k s).regs.cnt } }

/-- R67, R106, R108, R111, R112: the timer predicates, as comparisons of elapsed time modulo 2^32. -/
def Obligations.TimersCompareElapsedTime : Prop :=
  ∀ s : State,
    (quiet s = true ↔
      s.timing.rxSeen = true ∧ 500 ≤ (s.now - s.timing.tRx).toNat ∧ (s.now - s.timing.tRx).toNat < 1000) ∧
    (spacingOk s = true ↔ s.timing.attSeen = false ∨ 900 ≤ (s.now - s.timing.tAtt).toNat) ∧
    (receivingData s = true ↔ s.timing.frameSeen = true ∧ (s.now - s.timing.tFrame).toNat < 3000) ∧
    (debounceActive s = true ↔
      s.timing.cmdSeen = true ∧ (s.now - s.timing.tCmd).toNat < 3000 ∨
      s.timing.dataSeen = true ∧ (s.now - s.timing.tData).toNat < 3000) ∧
    (isEchoByte s = true ↔
      s.tx.txBusy = true ∨ s.timing.txEndSeen = true ∧ (s.now - s.timing.tTxEnd).toNat < s.params.tEcho)

/-- R29 ("Only CLEAR_STATUS clears it"): a STATUS bit that is set stays set through every step but a CLEAR_STATUS and a reset. -/
def Obligations.StatusBitsAreSticky : Prop :=
  ∀ (s t : State) (n : Nat), step s = .next t → s.regs.status.getLsbD n = true →
    (∀ time args rest, s.inputs ≠ .host time 0x0C args :: rest) → (∀ rest, s.inputs ≠ .reset :: rest) →
    t.regs.status.getLsbD n = true

/-! ### Received frames -/

/-- R86, R87: each of the five command frames decodes to its fields and completes; it is counted, refreshes liveness, and changes
nothing else. -/
def Obligations.CommandFramesAreOnlyCounted : Prop :=
  ∀ (rules : List BcastRule) (v z : Byte) (s : State),
    (∀ i ∈ [Instr.masterSetpoint v, .fanMode v, .operatingMode v, .zoneState v, .customZoneSetpoint z v],
      exec i s = .next { s with
        timing := { s.timing with frameSeen := true, tFrame := s.now }
        regs := { s.regs with cntFrames := s.regs.cntFrames + 1 } }) ∧
    parseCommand (decodeFrame rules [0x3A, v]) = some (.masterSetpoint v) ∧
    (∃ (speed : BitVec 2) (cont : Bool) (res : BitVec 5),
      parseCommand (decodeFrame rules [0x3B, v]) = some (.fanMode speed cont res) ∧
      speed.toNat = v.toNat % 4 ∧ res.toNat = v.toNat / 4 % 32 ∧ (cont = true ↔ 128 ≤ v.toNat)) ∧
    parseCommand (decodeFrame rules [0x3C, v]) = some (.operatingMode v) ∧
    parseCommand (decodeFrame rules [0x3D, v]) = some (.zoneState v) ∧
    parseCommand (decodeFrame rules [0x3F, z, v]) = some (.customZoneSetpoint z v)

/-- R103 with R86: a StateMessage or StateMessage2 completes; while the debounce is active its latch keeps its value and
DEBOUNCE_SUPPRESSED is raised, else it is latched; it is counted and refreshes liveness either way, and sets `eosFlag` if it is the
final type. -/
def Obligations.StateMessagesLatchUnlessDebounced : Prop :=
  ∀ (bytes : List Byte) (s : State) (timing1 timing2 : Timing),
    timing1 = { s.timing with
      frameSeen := true, tFrame := s.now
      eosFlag := s.timing.eosFlag || s.params.finalType == some .stateMessage } →
    timing2 = { s.timing with
      frameSeen := true, tFrame := s.now
      eosFlag := s.timing.eosFlag || s.params.finalType == some .stateMessage2 } →
    (debounceActive s = false →
      exec (.stateMessage bytes) s = .next { s with
        timing := timing1
        latches := { s.latches with sm := ⟨bytes, true⟩ }
        regs := { s.regs with cntFrames := s.regs.cntFrames + 1 } } ∧
      exec (.stateMessage2 bytes) s = .next { s with
        timing := timing2
        latches := { s.latches with sm2 := ⟨bytes, true⟩ }
        regs := { s.regs with cntFrames := s.regs.cntFrames + 1 } }) ∧
    (debounceActive s = true →
      exec (.stateMessage bytes) s = .next { s with
        timing := timing1
        regs := { (raiseEvent .debounceSuppressed s).regs with cntFrames := s.regs.cntFrames + 1 } } ∧
      exec (.stateMessage2 bytes) s = .next { s with
        timing := timing2
        regs := { (raiseEvent .debounceSuppressed s).regs with cntFrames := s.regs.cntFrames + 1 } })

/-- R103 with R86: any other broadcast completes and is only counted; it may end the sequence. -/
def Obligations.BroadcastIsOnlyCounted : Prop :=
  ∀ (k : Nat) (bytes : List Byte) (s : State),
    exec (.broadcast k bytes) s = .next { s with
      timing := { s.timing with
        frameSeen := true, tFrame := s.now
        eosFlag := s.timing.eosFlag || s.params.finalType == some (.broadcast k) }
      regs := { s.regs with cntFrames := s.regs.cntFrames + 1 } }

/-- R94 with R85, R86: an accepted wall frame completes: the latch of its zone holds the record with `csumOk`, whatever the debounce,
and no response is owed for it. A bad checksum raises CHECKSUM_MISMATCH and is accepted while CSUM_REJECT is 0. -/
def Obligations.WallFrameLatches : Prop :=
  ∀ (z : Zone) (f : WallBits) (csum : Byte) (s : State),
    (csum = checksum (packWallBits (BitVec.ofNat 4 z.number) f) →
      exec (.zoneWallController (BitVec.ofNat 4 z.number) f csum) s = .next { s with
        timing := { s.timing with frameSeen := true, tFrame := s.now }
        latches := { s.latches with
          zw := s.latches.zw.set z ⟨{ toWallBits := f, zone := BitVec.ofNat 4 z.number, csumOk := true }, true⟩ }
        regs := { s.regs with cntFrames := s.regs.cntFrames + 1 } }) ∧
    (csum ≠ checksum (packWallBits (BitVec.ofNat 4 z.number) f) → s.regs.config.getLsbD 0 = false →
      exec (.zoneWallController (BitVec.ofNat 4 z.number) f csum) s = .next { s with
        timing := { s.timing with frameSeen := true, tFrame := s.now }
        latches := { s.latches with
          zw := s.latches.zw.set z ⟨{ toWallBits := f, zone := BitVec.ofNat 4 z.number, csumOk := false }, true⟩ }
        regs := { (raiseEvent .checksumMismatch s).regs with cntFrames := s.regs.cntFrames + 1 } })

/-- R100 with R85, R86: an accepted master frame completes: the latch of its zone holds the record, whatever the debounce, and a
controlled zone with a known temperature owes a response. -/
def Obligations.MtzFrameLatchesAndOwesResponse : Prop :=
  ∀ (z : Zone) (f : MtzBits) (csum : Byte) (s : State),
    (csum = checksum (packMtzBits (BitVec.ofNat 4 z.number) f) →
      exec (.zoneMasterController (BitVec.ofNat 4 z.number) f csum) s = .next { s with
        timing := { s.timing with frameSeen := true, tFrame := s.now }
        latches := { s.latches with
          mtz := s.latches.mtz.set z ⟨{ toMtzBits := f, zone := BitVec.ofNat 4 z.number, csumOk := true }, true⟩ }
        respPending := s.respPending.set z
          (s.respPending.get z || (s.emu.controlled.get z && s.emu.emuTempValid.get z))
        regs := { s.regs with cntFrames := s.regs.cntFrames + 1 } }) ∧
    (csum ≠ checksum (packMtzBits (BitVec.ofNat 4 z.number) f) → s.regs.config.getLsbD 0 = false →
      exec (.zoneMasterController (BitVec.ofNat 4 z.number) f csum) s = .next { s with
        timing := { s.timing with frameSeen := true, tFrame := s.now }
        latches := { s.latches with
          mtz := s.latches.mtz.set z ⟨{ toMtzBits := f, zone := BitVec.ofNat 4 z.number, csumOk := false }, true⟩ }
        respPending := s.respPending.set z
          (s.respPending.get z || (s.emu.controlled.get z && s.emu.emuTempValid.get z))
        regs := { (raiseEvent .checksumMismatch s).regs with cntFrames := s.regs.cntFrames + 1 } })

/-- R83, R84, R85, R104: the frames that are dropped refresh liveness, raise one event and do nothing else: an Unknown frame
UNKNOWN_TAG or LENGTH_MISMATCH by its cause; a zone frame outside zones 1..8 RX_ZONE_RANGE whatever its checksum; one with a bad
checksum, while CSUM_REJECT is 1, CHECKSUM_MISMATCH. -/
def Obligations.DroppedFramesOnlyRaise : Prop :=
  ∀ (bytes : List Byte) (zone : BitVec 4) (w : WallBits) (m : MtzBits) (csum : Byte) (s live : State),
    live = { s with timing := { s.timing with frameSeen := true, tFrame := s.now } } →
    exec (.unknown .unknownTag bytes) s = .next (raiseEvent .unknownTag live) ∧
    exec (.unknown .lengthMismatch bytes) s = .next (raiseEvent .lengthMismatch live) ∧
    (zone.toNat < 1 ∨ 8 < zone.toNat →
      exec (.zoneWallController zone w csum) s = .next (raiseEvent .rxZoneRange live) ∧
      exec (.zoneMasterController zone m csum) s = .next (raiseEvent .rxZoneRange live)) ∧
    (1 ≤ zone.toNat → zone.toNat ≤ 8 → s.regs.config.getLsbD 0 = true → csum ≠ checksum (packWallBits zone w) →
      exec (.zoneWallController zone w csum) s = .next (raiseEvent .checksumMismatch live)) ∧
    (1 ≤ zone.toNat → zone.toNat ≤ 8 → s.regs.config.getLsbD 0 = true → csum ≠ checksum (packMtzBits zone m) →
      exec (.zoneMasterController zone m csum) s = .next (raiseEvent .checksumMismatch live))

/-- R67, R81, R82: every peer frame, of whatever type and content, refreshes liveness; an echo frame raises ECHO_FRAME and has no
other effect. -/
def Obligations.PeerFramesRefreshLiveness : Prop :=
  ∀ (bytes : List Byte) (s : State),
    ((processFrame bytes false s).timing.frameSeen = true ∧ (processFrame bytes false s).timing.tFrame = s.now) ∧
    processFrame bytes true s = raiseEvent .echoFrame s

/-- R34, R63, R87, R94, R100, R103: what no received frame can change: the time base, the framer, the transmitter, the slots, the
emulation registers, CONFIG, the parameters, the inputs still to come and the outputs, and all of the timing state but liveness
and a set `eosFlag`. -/
def Obligations.FramesLeaveTheRest : Prop :=
  ∀ (f : Frame) (s t : State), exec f.toInstr s = .next t →
    t = { s with
      timing := { s.timing with frameSeen := true, tFrame := s.now, eosFlag := t.timing.eosFlag }
      respPending := t.respPending
      latches := t.latches
      regs := { t.regs with config := s.regs.config } } ∧
    (s.timing.eosFlag = true → t.timing.eosFlag = true)

/-! ### Host intents -/

/-- R119 (check 1), R142's predicate false: each of the eight intents completes, raising INTENT_STALE and changing nothing else. -/
def Obligations.StaleIntentsAreDropped : Prop :=
  ∀ (on adj : Bool) (a b : Byte) (d : Half) (s : State), receivingData s = false →
    ∀ i ∈ [Instr.setSystemOn on, .setOperatingMode a, .setFanSpeed a, .setFanSpeedAbsolute a b, .setContinuousFanMode a,
        .setMasterSetpoint d, .setZoneOn a on, .setZoneSetpointTemperature a d adj],
      exec i s = .next (raiseEvent .intentStale s)

/-- R122, R123: with a known mode m of 0..7 (the pending value, or else the decoded one) SET_SYSTEM_ON completes and queues m with bit
2 set, or cleared, which is the two tables of the rule; without one it raises INTENT_NO_CONTEXT. -/
def Obligations.SystemOnMapsTheMode : Prop :=
  ∀ (on : Bool) (s : State), receivingData s = true →
    (∀ m : Byte,
      (s.slots.opMode.pending = true ∧ s.slots.opMode.value = m ∨
        s.slots.opMode.pending = false ∧ (srcFields s).operatingMode = some m) → m.toNat ≤ 7 →
      exec (.setSystemOn on) s = .next { s with slots := { s.slots with
        opMode := ⟨if on then m ||| 4 else m &&& 3, true⟩ } }) ∧
    (s.slots.opMode.pending = false → (srcFields s).operatingMode = none →
      exec (.setSystemOn on) s = .next (raiseEvent .intentNoContext s)) ∧
    (∀ m : Byte,
      (s.slots.opMode.pending = true ∧ s.slots.opMode.value = m ∨
        s.slots.opMode.pending = false ∧ (srcFields s).operatingMode = some m) → 7 < m.toNat →
      exec (.setSystemOn on) s = .next (raiseEvent .intentNoContext s))

/-- R124: a mode 0..7 is queued; any other raises BAD_ARGUMENT; a stale intent raises INTENT_STALE. -/
def Obligations.OperatingModeIsQueued : Prop :=
  ∀ (mode : Byte) (s : State),
    (receivingData s = false → exec (.setOperatingMode mode) s = .next (raiseEvent .intentStale s)) ∧
    (receivingData s = true → 7 < mode.toNat → exec (.setOperatingMode mode) s = .next (raiseEvent .badArgument s)) ∧
    (receivingData s = true → mode.toNat ≤ 7 →
      exec (.setOperatingMode mode) s = .next { s with slots := { s.slots with opMode := ⟨mode, true⟩ } })

/-- R125, R127: SET_FAN_SPEED keeps the continuous flag and SET_CONTINUOUS_FAN_MODE keeps the speed, of the pending value or else of
the decoded field; an argument out of its domain raises BAD_ARGUMENT, an absent field INTENT_NO_CONTEXT. -/
def Obligations.FanIntentsKeepTheOtherPart : Prop :=
  ∀ (speed cont : Byte) (s : State), receivingData s = true →
    (3 < speed.toNat → exec (.setFanSpeed speed) s = .next (raiseEvent .badArgument s)) ∧
    (speed.toNat ≤ 3 → s.slots.fanMode.pending = true →
      exec (.setFanSpeed speed) s = .next { s with slots := { s.slots with
        fanMode := ⟨(s.slots.fanMode.value &&& 0x80#8) ||| speed, true⟩ } }) ∧
    (∀ c : Bool, speed.toNat ≤ 3 → s.slots.fanMode.pending = false → (srcFields s).continuousFan = some c →
      exec (.setFanSpeed speed) s = .next { s with slots := { s.slots with
        fanMode := ⟨(if c then 0x80#8 else 0) ||| speed, true⟩ } }) ∧
    (speed.toNat ≤ 3 → s.slots.fanMode.pending = false → (srcFields s).continuousFan = none →
      exec (.setFanSpeed speed) s = .next (raiseEvent .intentNoContext s)) ∧
    (1 < cont.toNat → exec (.setContinuousFanMode cont) s = .next (raiseEvent .badArgument s)) ∧
    (cont.toNat ≤ 1 → s.slots.fanMode.pending = true →
      exec (.setContinuousFanMode cont) s = .next { s with slots := { s.slots with
        fanMode := ⟨BitVec.ofNat 8 (128 * cont.toNat + s.slots.fanMode.value.toNat % 4), true⟩ } }) ∧
    (∀ v : BitVec 2, cont.toNat ≤ 1 → s.slots.fanMode.pending = false → (srcFields s).fanSpeed = some v →
      exec (.setContinuousFanMode cont) s = .next { s with slots := { s.slots with
        fanMode := ⟨BitVec.ofNat 8 (128 * cont.toNat + v.toNat), true⟩ } }) ∧
    (cont.toNat ≤ 1 → s.slots.fanMode.pending = false → (srcFields s).fanSpeed = none →
      exec (.setContinuousFanMode cont) s = .next (raiseEvent .intentNoContext s))

/-- R126: SET_FAN_SPEED_ABSOLUTE sets both parts and needs no context. -/
def Obligations.FanSpeedAbsoluteSetsBoth : Prop :=
  ∀ (speed cont : Byte) (s : State),
    (receivingData s = false → exec (.setFanSpeedAbsolute speed cont) s = .next (raiseEvent .intentStale s)) ∧
    (receivingData s = true → 3 < speed.toNat ∨ 1 < cont.toNat →
      exec (.setFanSpeedAbsolute speed cont) s = .next (raiseEvent .badArgument s)) ∧
    (receivingData s = true → speed.toNat ≤ 3 → cont.toNat ≤ 1 →
      exec (.setFanSpeedAbsolute speed cont) s = .next { s with slots := { s.slots with
        fanMode := ⟨BitVec.ofNat 8 (128 * cont.toNat + speed.toNat), true⟩ } })

/-- R128: SET_MASTER_SETPOINT queues a value v of 32..60: the nearest half-degree (5 v within 2 of d) where that is in range, else
the nearer bound. -/
def Obligations.MasterSetpointIsClamped : Prop :=
  ∀ (d : Half) (s : State),
    (receivingData s = false → exec (.setMasterSetpoint d) s = .next (raiseEvent .intentStale s)) ∧
    (receivingData s = true → ∃ v : Byte,
      exec (.setMasterSetpoint d) s = .next { s with slots := { s.slots with masterSp := ⟨v, true⟩ } } ∧
      InSetpointRange v ∧
      (d.toInt ≤ 160 → v = 32) ∧ (300 ≤ d.toInt → v = 60) ∧
      (160 ≤ d.toInt → d.toInt ≤ 300 → -2 ≤ 5 * (v.toNat : Int) - d.toInt ∧ 5 * (v.toNat : Int) - d.toInt ≤ 2))

/-- R122, R129: SET_ZONE_ON queues the known bitmap (the pending value, or else the decoded one) with the zone's bit switched and every
other bit kept. -/
def Obligations.ZoneOnSwitchesOneBit : Prop :=
  ∀ (zone : Byte) (on : Bool) (s : State), receivingData s = true →
    (zone.toNat < 1 ∨ 8 < zone.toNat → exec (.setZoneOn zone on) s = .next (raiseEvent .intentZoneRange s)) ∧
    (1 ≤ zone.toNat → zone.toNat ≤ 8 → s.slots.zoneState.pending = false → (srcFields s).zoneOnBitmap = none →
      exec (.setZoneOn zone on) s = .next (raiseEvent .intentNoContext s)) ∧
    (∀ m : Byte, 1 ≤ zone.toNat → zone.toNat ≤ 8 →
      (s.slots.zoneState.pending = true ∧ s.slots.zoneState.value = m ∨
        s.slots.zoneState.pending = false ∧ (srcFields s).zoneOnBitmap = some m) →
      ∃ v : Byte,
        exec (.setZoneOn zone on) s = .next { s with slots := { s.slots with zoneState := ⟨v, true⟩ } } ∧
        v.getLsbD (zone.toNat - 1) = on ∧ ∀ n, n ≠ zone.toNat - 1 → v.getLsbD n = m.getLsbD n)

/-- R130. The target v is the nearest half-degree clamped to 32..60. Without `adjustMaster`, with no valid latch, or with v inside the
zone's range, it is stored, and a zone this node does not control is queued. Else the master setpoint is queued too, shifted by the
signed distance of v from the range (from max when above it, else from min) and clamped to 32..60; the shift starts from the known master
setpoint (the pending value, or else the decoded one), and with none the whole operation is dropped. The gate and the zone check come
first. -/
def Obligations.ZoneSetpointIsStoredAndShiftsMaster : Prop :=
  (∀ (zone : Byte) (d : Half) (adj : Bool) (s : State),
    (receivingData s = false →
      exec (.setZoneSetpointTemperature zone d adj) s = .next (raiseEvent .intentStale s)) ∧
    (receivingData s = true → zone.toNat < 1 ∨ 8 < zone.toNat →
      exec (.setZoneSetpointTemperature zone d adj) s = .next (raiseEvent .intentZoneRange s))) ∧
  (∀ (z : Zone) (d : Half) (adj : Bool) (s stored : State) (v : Byte), receivingData s = true →
    v = BitVec.ofInt 8 (max 32 (min (spFromTemp d.toInt) 60)) →
    stored = { s with
      emu := { s.emu with
        desiredSp := s.emu.desiredSp.set z v
        desiredValid := s.emu.desiredValid.set z true }
      slots := { s.slots with
        customSp :=
          if s.emu.controlled.get z = true then s.slots.customSp else ⟨⟨BitVec.ofNat 4 z.number, v⟩, true⟩ } } →
    (adj = false ∨ (s.latches.mtz.get z).valid = false ∨
        (s.latches.mtz.get z).value.min.toNat ≤ v.toNat ∧ v.toNat ≤ (s.latches.mtz.get z).value.max.toNat →
      exec (.setZoneSetpointTemperature (BitVec.ofNat 8 z.number) d adj) s = .next stored) ∧
    (∀ delta : Int, adj = true → (s.latches.mtz.get z).valid = true →
      (delta = (v.toNat : Int) - (s.latches.mtz.get z).value.max.toNat ∧ 0 < delta ∨
        delta = (v.toNat : Int) - (s.latches.mtz.get z).value.min.toNat ∧ delta < 0 ∧
          v.toNat ≤ (s.latches.mtz.get z).value.max.toNat) →
      (∀ b : Byte,
        (s.slots.masterSp.pending = true ∧ s.slots.masterSp.value = b ∨
          s.slots.masterSp.pending = false ∧ (srcFields s).masterSetpoint = some b) →
        exec (.setZoneSetpointTemperature (BitVec.ofNat 8 z.number) d adj) s = .next { stored with
          slots := { stored.slots with
            masterSp := ⟨BitVec.ofInt 8 (max 32 (min (b.toNat + delta) 60)), true⟩ } }) ∧
      (s.slots.masterSp.pending = false → (srcFields s).masterSetpoint = none →
        exec (.setZoneSetpointTemperature (BitVec.ofNat 8 z.number) d adj) s =
          .next (raiseEvent .intentNoContext s))))

/-- R119, R120: whatever an intent answers, it changes at most slots, desired setpoints, STATUS and the event counters: no latch, no
timing, no framer, no transmitter, no response, no CONFIG, no frame count. -/
def Obligations.IntentsOnlyFillSlots : Prop :=
  ∀ (on adj : Bool) (a b : Byte) (d : Half) (s t : State),
    ∀ i ∈ [Instr.setSystemOn on, .setOperatingMode a, .setFanSpeed a, .setFanSpeedAbsolute a b, .setContinuousFanMode a,
        .setMasterSetpoint d, .setZoneOn a on, .setZoneSetpointTemperature a d adj],
      exec i s = .next t →
        t = { s with
          slots := { t.slots with mtz := s.slots.mtz }
          emu := { s.emu with desiredSp := t.emu.desiredSp, desiredValid := t.emu.desiredValid }
          regs := { s.regs with status := t.regs.status, cnt := t.regs.cnt } }

/-! ### Host writes that are not gated -/

/-- R131, R132, R133: the three zone-emulation writes, at any liveness: for a zone of 1..8 they have their effect, for any other zone
argument they raise INTENT_ZONE_RANGE and do nothing else. Giving a zone up cancels the response it owes. -/
def Obligations.EmulationWritesApply : Prop :=
  (∀ (z : Zone) (d : Half) (en : Bool) (f : MtzBits) (s : State),
    exec (.setZoneCurrentTemperature (BitVec.ofNat 8 z.number) d) s = .next { s with
      emu := { s.emu with
        emuTemp := s.emu.emuTemp.set z d
        emuTempValid := s.emu.emuTempValid.set z true } } ∧
    exec (.setControlZone (BitVec.ofNat 8 z.number) en) s = .next { s with
      emu := { s.emu with controlled := s.emu.controlled.set z en }
      respPending := s.respPending.set z (s.respPending.get z && en) } ∧
    exec (.sendZoneMasterOverride (BitVec.ofNat 8 z.number) f) s = .next { s with
      slots := { s.slots with
        mtz := s.slots.mtz.set z ⟨{ toMtzBits := f, zone := BitVec.ofNat 4 z.number, csumOk := true }, true⟩ } }) ∧
  (∀ (zone : Byte) (d : Half) (en : Bool) (f : MtzBits) (s : State), zone.toNat < 1 ∨ 8 < zone.toNat →
    ∀ i ∈ [Instr.setZoneCurrentTemperature zone d, .setControlZone zone en, .sendZoneMasterOverride zone f],
      exec i s = .next (raiseEvent .intentZoneRange s))

/-- R134, R135: CLEAR_STATUS clears the bits of the mask and bits 15:11; WRITE_CONFIG writes bit 0, and bits 7:1 become 0; neither
changes anything else. -/
def Obligations.StatusAndConfigWrites : Prop :=
  ∀ (mask : Half) (v : Byte) (s : State), ∃ (st : BitVec 16) (c : Byte),
    exec (.clearStatus mask) s = .next { s with regs := { s.regs with status := st } } ∧
    (∀ n, st.getLsbD n = (s.regs.status.getLsbD n && !mask.getLsbD n && decide (n < 11))) ∧
    exec (.writeConfig v) s = .next { s with regs := { s.regs with config := c } } ∧
    ∀ n, c.getLsbD n = (v.getLsbD n && decide (n = 0))

/-- R136: PROCESS_MESSAGE of 1..P_FRAME_CAP bytes completes as the received frame those bytes decode to, and leaves the framer and the
window alone; any other length raises BAD_ARGUMENT. That the length has nine bits, for R59's range, is the model's choice
(assumption 10). -/
def Obligations.ProcessMessageRunsTheFrame : Prop :=
  ∀ (n : BitVec 9) (bytes : List Byte) (s : State), bytes.length = n.toNat →
    (n.toNat < 1 ∨ s.params.frameCap < n.toNat →
      exec (.processMessage n bytes) s = .next (raiseEvent .badArgument s)) ∧
    (1 ≤ n.toNat → n.toNat ≤ s.params.frameCap →
      ∃ t, exec (.processMessage n bytes) s = .next t ∧
        exec (decodeFrame s.params.bcastRules bytes).toInstr s = .next t ∧
        t.framer = s.framer ∧ t.timing.tRx = s.timing.tRx ∧ t.timing.windowUsed = s.timing.windowUsed)

/-! ### Host reads -/

/-- R31, R144: READ_REG answers the register, bit by bit as R31 lays it out, and changes nothing else; an unassigned number answers 0
and raises BAD_ARGUMENT. -/
def Obligations.ReadRegFollowsTheMap : Prop :=
  ∀ (n : Byte) (s : State),
    (n.toNat = 0x07 ∨ 0x09 ≤ n.toNat ∧ n.toNat ≤ 0x0F ∨ 0x1B ≤ n.toNat →
      exec (.readReg n) s = .next { raiseEvent .badArgument s with out := { s.out with hostResult := .register 0 } }) ∧
    (n.toNat ≤ 0x06 ∨ n.toNat = 0x08 ∨ 0x10 ≤ n.toNat ∧ n.toNat ≤ 0x1A →
      ∃ v : Word, exec (.readReg n) s = .next { s with out := { s.out with hostResult := .register v } } ∧
        (n = 0x00 → v.toNat = s.regs.status.toNat) ∧
        (n = 0x01 → v.toNat = s.regs.config.toNat) ∧
        (n = 0x02 → v.getLsbD 0 = s.slots.opMode.pending ∧ v.getLsbD 1 = s.slots.zoneState.pending ∧
          v.getLsbD 2 = s.slots.fanMode.pending ∧ v.getLsbD 3 = s.slots.masterSp.pending ∧
          v.getLsbD 4 = s.slots.customSp.pending ∧ (∀ b, 5 ≤ b → b ≤ 7 → v.getLsbD b = false) ∧
          (∀ z : Zone, v.getLsbD (7 + z.number) = (s.slots.mtz.get z).pending) ∧ ∀ b, 16 ≤ b → v.getLsbD b = false) ∧
        (n = 0x03 → v.getLsbD 0 = receivingData s ∧ v.getLsbD 1 = s.tx.txBusy ∧ v.getLsbD 2 = s.tx.de ∧
          v.getLsbD 3 = s.timing.windowUsed ∧ v.getLsbD 4 = s.timing.eosFlag ∧ v.getLsbD 5 = debounceActive s ∧
          v.getLsbD 6 = decide (0 < s.framer.len) ∧ ∀ b, 7 ≤ b → v.getLsbD b = false) ∧
        (n = 0x04 → v.toNat = s.framer.len % 2 ^ 32) ∧
        (n = 0x05 → (∀ z : Zone, v.getLsbD (z.number - 1) = s.emu.controlled.get z) ∧ ∀ b, 8 ≤ b → v.getLsbD b = false) ∧
        (n = 0x06 → (∀ z : Zone, v.getLsbD (z.number - 1) = s.respPending.get z) ∧ ∀ b, 8 ≤ b → v.getLsbD b = false) ∧
        (n = 0x08 → v = s.regs.cntFrames) ∧
        (∀ k : EventCode, n.toNat = 0x10 + eventCode k → v = counterOf s.regs.cnt k))

/-- R121, R137, R138, R139, R141, R142: the accessors complete with the fields of the chosen message as (valid, value) pairs, an
absent one (0, 0), and change nothing else. The message is StateMessage once one is latched, else StateMessage2, else none; its fields
are those `srcFields` gives the intents. -/
def Obligations.AccessorsAnswer : Prop :=
  ∀ (s : State) (f : StateFields),
    (s.latches.sm.valid = true → f = stateDecode s.params .stateMessage s.latches.sm.value) →
    (s.latches.sm.valid = false → s.latches.sm2.valid = true →
      f = stateDecode s.params .stateMessage2 s.latches.sm2.value) →
    (s.latches.sm.valid = false → s.latches.sm2.valid = false → f = StateFields.absent) →
    srcFields s = f ∧
    exec .getOperatingMode s = .next { s with out := { s.out with
      hostResult := .operatingMode ⟨f.operatingMode.isSome, f.operatingMode.getD 0⟩
        ⟨f.lastOperatingMode.isSome, f.lastOperatingMode.getD 0⟩ } } ∧
    exec .getFanMode s = .next { s with out := { s.out with
      hostResult := .fanMode ⟨f.fanSpeed.isSome, f.fanSpeed.getD 0⟩ ⟨f.continuousFan.isSome, f.continuousFan.getD false⟩
        ⟨f.fanActive.isSome, f.fanActive.getD false⟩ } } ∧
    exec .getMaster s = .next { s with out := { s.out with
      hostResult := .master ⟨f.masterSetpoint.isSome, f.masterSetpoint.getD 0⟩
        ⟨f.averageTemperature.isSome, f.averageTemperature.getD 0⟩ } } ∧
    exec .getCompressor s = .next { s with out := { s.out with
      hostResult := .compressor ⟨f.compressorMode.isSome, f.compressorMode.getD false⟩
        ⟨f.compressorActive.isSome, f.compressorActive.getD false⟩ } } ∧
    exec .receivingData s = .next { s with out := { s.out with hostResult := .receivingData (receivingData s) } }

/-- R140: GET_ZONE completes. For a zone of 1..8: on-state and setpoint from the chosen message, temperature and damper percentage from
the zone's master latch, invalid and 0 where the source is. For any other: INTENT_ZONE_RANGE and all invalid. -/
def Obligations.GetZoneAnswers : Prop :=
  (∀ (z : Zone) (s : State),
    exec (.getZone (BitVec.ofNat 8 z.number)) s = .next { s with out := { s.out with
      hostResult := .zone
        ⟨(srcFields s).zoneOnBitmap.isSome, ((srcFields s).zoneOnBitmap.getD 0).getLsbD (z.number - 1)⟩
        ⟨((srcFields s).zoneSetpoint.get z).isSome, ((srcFields s).zoneSetpoint.get z).getD 0⟩
        (if (s.latches.mtz.get z).valid then ⟨true, (s.latches.mtz.get z).value.temp9⟩ else ⟨false, 0⟩)
        (if (s.latches.mtz.get z).valid then
            ⟨true, BitVec.ofNat 8 (20 * min (s.latches.mtz.get z).value.damper.toNat 5)⟩
          else ⟨false, 0⟩) } }) ∧
  ∀ (zone : Byte) (s : State), zone.toNat < 1 ∨ 8 < zone.toNat →
    exec (.getZone zone) s = .next { raiseEvent .intentZoneRange s with
      out := { s.out with hostResult := .zone ⟨false, false⟩ ⟨false, 0⟩ ⟨false, 0⟩ ⟨false, 0⟩ } }

/-- R143: PENDING_COUNT answers the number of pending slots, 0 to 13, and changes nothing else. -/
def Obligations.PendingCountCounts : Prop :=
  ∀ s : State, ∃ v : Byte,
    exec .pendingCount s = .next { s with out := { s.out with hostResult := .pendingCount v } } ∧
    v.toNat =
      s.slots.opMode.pending.toNat + s.slots.zoneState.pending.toNat + s.slots.fanMode.pending.toNat
        + s.slots.masterSp.pending.toNat + s.slots.customSp.pending.toNat
        + (Zone.all.map (fun z => (s.slots.mtz.get z).pending.toNat)).sum ∧
    v.toNat ≤ 13

/-- R145: a selector outside R59's table, or a known one with the wrong arguments, raises BAD_ARGUMENT and does nothing else.
Which argument bytes a selector takes is the model's layout (assumption 5). -/
def Obligations.UnassignedSelectorIsRefused : Prop :=
  ∀ (sel : Byte) (args : List Byte) (s : State),
    exec (.unassignedSelector sel args) s = .next (raiseEvent .badArgument s) ∧
    (selectorTakes sel args = false → exec (decodeHost sel args) s = .next (raiseEvent .badArgument s))

/-! ### The framer -/

/-- A step runs the decoded instruction (R15, R20, R39, R59, R63 to R65, R67, R81, R105). A host event runs the operation its selector
and arguments decode to, at its time: that `now` becomes its t, also where the old `now` is another, is the model's reading of R15 and
R20 (assumption 8). A tick, or a byte, that finds the silence elapsed empties the buffer; over a peer's frame it runs the instruction
the frame decodes to, over an echo frame it raises ECHO_FRAME; then it goes on to what the tick sends, or to the byte. A tick that finds
no frame, or one not timed out, goes straight to what it sends (a byte that does: RxByteIsStored, OverflowDiscardsTheFrame). That the
output ports are cleared first is the model's choice (assumption 4). -/
def Obligations.StepRunsTheDecodedInstruction : Prop :=
  (∀ (s : State) (t : Word) (sel : Byte) (args : List Byte) (rest : List Event) (i : Instr),
    s.inputs = .host t sel args :: rest → decodeHost sel args = i →
      step s = exec i { s with inputs := rest, now := t, out := ⟨false, .none⟩ }) ∧
  (∀ (s s' : State) (t : Word) (rest : List Event) (bytes : List Byte) (i : Instr),
    s.inputs = .tick t :: rest → 0 < s.framer.len → s.framer.len ≤ s.params.frameCap →
    5 ≤ (t - s.framer.tLast).toNat → s.framer.echoAcc = false →
    bytes = (List.range s.framer.len).map (memoryRead s.framer.buf) →
    i = (decodeFrame s.params.bcastRules bytes).toInstr →
    exec i { s with
      inputs := rest, now := t, out := ⟨false, .none⟩
      framer := { s.framer with len := 0, echoAcc := false } } = .next s' →
      step s = .next (tickSend s')) ∧
  (∀ (s s' : State) (t : Word) (b : Byte) (rest : List Event) (bytes : List Byte) (i : Instr),
    s.inputs = .rxByte t b :: rest → 0 < s.framer.len → s.framer.len ≤ s.params.frameCap →
    5 ≤ (t - s.framer.tLast).toNat → s.framer.echoAcc = false →
    bytes = (List.range s.framer.len).map (memoryRead s.framer.buf) →
    i = (decodeFrame s.params.bcastRules bytes).toInstr →
    exec i { s with
      inputs := rest, now := t, out := ⟨false, .none⟩
      framer := { s.framer with len := 0, echoAcc := false } } = .next s' →
      step s = storeByte b (noteByte s')) ∧
  (∀ (s : State) (t : Word) (rest : List Event), s.inputs = .tick t :: rest →
    s.framer.len = 0 ∨ (t - s.framer.tLast).toNat < 5 →
      step s = .next (tickSend { s with inputs := rest, now := t, out := ⟨false, .none⟩ })) ∧
  (∀ (s : State) (t : Word) (rest : List Event), s.inputs = .tick t :: rest →
    0 < s.framer.len → s.framer.len ≤ s.params.frameCap → 5 ≤ (t - s.framer.tLast).toNat → s.framer.echoAcc = true →
      step s = .next (tickSend (raiseEvent .echoFrame { s with
        inputs := rest, now := t, out := ⟨false, .none⟩
        framer := { s.framer with len := 0, echoAcc := false } }))) ∧
  (∀ (s : State) (t : Word) (b : Byte) (rest : List Event), s.inputs = .rxByte t b :: rest →
    0 < s.framer.len → s.framer.len ≤ s.params.frameCap → 5 ≤ (t - s.framer.tLast).toNat → s.framer.echoAcc = true →
      step s = storeByte b (noteByte (raiseEvent .echoFrame { s with
        inputs := rest, now := t, out := ⟨false, .none⟩
        framer := { s.framer with len := 0, echoAcc := false } })))

/-- R63: a byte that arrives while no frame times out and the buffer has room is stored at `len`, with its time and its echo mark;
a byte of a peer opens a new window, an echo byte does not, and nothing else changes but the output ports, which every event clears
(the model's choice, assumption 4). -/
def Obligations.RxByteIsStored : Prop :=
  ∀ (s : State) (t : Word) (b : Byte) (rest : List Event) (echo : Bool),
    s.inputs = .rxByte t b :: rest → s.framer.len < s.params.frameCap →
    (s.framer.len = 0 ∨ (t - s.framer.tLast).toNat < 5) →
    (echo = true ↔ s.tx.txBusy = true ∨ s.timing.txEndSeen = true ∧ (t - s.timing.tTxEnd).toNat < s.params.tEcho) →
    step s = .next { s with
      inputs := rest, now := t, out := ⟨false, .none⟩
      framer :=
        { buf := memoryWrite s.framer.buf s.framer.len b
          len := s.framer.len + 1
          tLast := t
          echoAcc := echo || (decide (0 < s.framer.len) && s.framer.echoAcc) }
      timing := { s.timing with
        rxSeen := true, tRx := t
        windowUsed := echo && s.timing.windowUsed
        eosFlag := echo && s.timing.eosFlag } }

/-- R66: a byte that finds the buffer full and not timed out raises FRAME_TOO_LONG; the buffer and the byte are discarded, nothing is
classified and liveness is not refreshed; the byte still counts as traffic (R63). That the output ports are cleared is the model's
choice (assumption 4). -/
def Obligations.OverflowDiscardsTheFrame : Prop :=
  ∀ (s : State) (t : Word) (b : Byte) (rest : List Event) (echo : Bool),
    s.inputs = .rxByte t b :: rest → s.framer.len = s.params.frameCap → 0 < s.params.frameCap →
    (t - s.framer.tLast).toNat < 5 →
    (echo = true ↔ s.tx.txBusy = true ∨ s.timing.txEndSeen = true ∧ (t - s.timing.tTxEnd).toNat < s.params.tEcho) →
    step s = .next (raiseEvent .frameTooLong { s with
      inputs := rest, now := t, out := ⟨false, .none⟩
      framer := { s.framer with len := 0, echoAcc := false }
      timing := { s.timing with
        rxSeen := true, tRx := t
        windowUsed := echo && s.timing.windowUsed
        eosFlag := echo && s.timing.eosFlag } })

/-- R62, the boundary law over runs: between two consecutive bytes come only ticks, none later than the second byte, ends of
transmission and host operations. A gap under 5 ms appends the second byte to the frame, whose earlier bytes stay; a gap of 5 ms or
more makes it the first byte of a new frame. -/
def Obligations.GapDecidesTheFrame : Prop :=
  ∀ (s : State) (es : List Event) (t : Word) (b : Byte) (rest : List Event),
    s.inputs = es ++ .rxByte t b :: rest → memoryWf s.framer.buf = true →
    0 < s.framer.len → s.framer.len < s.params.frameCap →
    (∀ e ∈ es, (∃ u, e = .tick u ∧ (u - s.framer.tLast).toNat ≤ (t - s.framer.tLast).toNat) ∨
      (∃ u, e = .txComplete u) ∨ ∃ u sel args, e = .host u sel args) →
    ∃ s', core.run (es.length + 1) s = .next s' ∧ s'.inputs = rest ∧ s'.framer.tLast = t ∧
      ((t - s.framer.tLast).toNat < 5 →
        s'.framer.len = s.framer.len + 1 ∧ memoryRead s'.framer.buf s.framer.len = b ∧
        ∀ a, a < s.framer.len → memoryRead s'.framer.buf a = memoryRead s.framer.buf a) ∧
      (5 ≤ (t - s.framer.tLast).toNat → s'.framer.len = 1 ∧ memoryRead s'.framer.buf 0 = b)

/-! ### The arbiter and the transmitter -/

/-- R42: a second tick at the same time changes nothing that the first did not change. -/
def Obligations.SecondTickChangesNothing : Prop :=
  ∀ (s : State) (t : Word), andThen (tick t s) (tick t) = tick t s

/-- R105 (step 5), R113, R114: in a quiet window or at the end of a sequence, with the spacing kept and the window unused, the first
pending slot in the order of the rule is sent as the frame of its type, its flag is cleared and its value kept, the window is used,
and the times are noted: `tCmd` for a command, `tData` for a master override. The bytes the UART takes are the frame (R116), from a
canonical transmit buffer (which `Inv` says every reachable one is). -/
def Obligations.DrainSendsTheHighestSlot : Prop :=
  (∀ s : State,
    slotPending s .opMode = s.slots.opMode.pending ∧ slotPending s .zoneState = s.slots.zoneState.pending ∧
    slotPending s .fanMode = s.slots.fanMode.pending ∧ slotPending s .masterSp = s.slots.masterSp.pending ∧
    slotPending s .customSp = s.slots.customSp.pending ∧
    ∀ z, slotPending s (.mtz z) = (s.slots.mtz.get z).pending) ∧
  ∀ (s : State) (k : SlotId) (order : List SlotId),
    order = [.opMode, .zoneState, .fanMode, .masterSp, .customSp, .mtz .z1, .mtz .z2, .mtz .z3, .mtz .z4, .mtz .z5,
      .mtz .z6, .mtz .z7, .mtz .z8] →
    quiet s = true ∨ s.timing.eosFlag = true → spacingOk s = true → s.timing.windowUsed = false →
    s.tx.txBusy = false → s.framer.len = 0 → (∀ z, s.respPending.get z = false) → slotPending s k = true →
    (∀ j, slotPending s j = true → order.idxOf k ≤ order.idxOf j) →
    ∃ t, tickSend s = t ∧
      t.tx.txBusy = true ∧ t.tx.txStart = s.now ∧ t.tx.de = s.params.hasDe ∧ t.tx.txLen = (slotFrame s k).length ∧
      t.tx.txBuf = memoryWriteAll s.tx.txBuf 0 (slotFrame s k) ∧
      (memoryWf s.tx.txBuf = true → txBytes t = slotFrame s k) ∧
      (k = .opMode → slotFrame s k = [0x3C, s.slots.opMode.value]) ∧
      (k = .zoneState → slotFrame s k = [0x3D, s.slots.zoneState.value]) ∧
      (k = .fanMode → slotFrame s k = [0x3B, s.slots.fanMode.value]) ∧
      (k = .masterSp → slotFrame s k = [0x3A, s.slots.masterSp.value]) ∧
      (k = .customSp → slotFrame s k = [0x3F, s.slots.customSp.value.zone.setWidth 8, s.slots.customSp.value.sp]) ∧
      (∀ z, k = .mtz z → slotFrame s k = genMtz (s.slots.mtz.get z).value) ∧
      (∀ j, slotPending t j = (slotPending s j && decide (j ≠ k))) ∧
      t.slots.opMode.value = s.slots.opMode.value ∧ t.slots.zoneState.value = s.slots.zoneState.value ∧
      t.slots.fanMode.value = s.slots.fanMode.value ∧ t.slots.masterSp.value = s.slots.masterSp.value ∧
      t.slots.customSp.value = s.slots.customSp.value ∧
      (∀ z, (t.slots.mtz.get z).value = (s.slots.mtz.get z).value) ∧
      t.timing = { s.timing with
        windowUsed := true, eosFlag := false, attSeen := true, tAtt := s.now
        cmdSeen := s.timing.cmdSeen || order.idxOf k < 5
        tCmd := if order.idxOf k < 5 then s.now else s.timing.tCmd
        dataSeen := s.timing.dataSeen || 5 ≤ order.idxOf k
        tData := if 5 ≤ order.idxOf k then s.now else s.timing.tData } ∧
      t = { s with tx := t.tx, slots := t.slots, timing := t.timing, out := { s.out with txStrobe := true } }

/-- R105, R108, R109: a tick notes a new attempt only from an idle transmitter, with no frame in progress, no response owed, in a quiet
window or at the end of a sequence, 900 ms or more after the last attempt, in a window not yet used, and for a slot that was pending;
`mid` is the state after the tick's framer part. What a tick sends after that part is nothing, and the state stays as it is: while a
frame is in flight, while one is being received, and, with no response owed, when a condition of a drain fails or no slot is pending. -/
def Obligations.DrainNeedsItsConditions : Prop :=
  (∀ (s t mid : State) (time : Word),
    closeIfSilent { s with now := time } = .next mid → tick time s = .next t → t.timing ≠ mid.timing →
    mid.tx.txBusy = false ∧ mid.framer.len = 0 ∧ (∀ z, mid.respPending.get z = false) ∧
    (mid.timing.eosFlag = true ∨
      mid.timing.rxSeen = true ∧ 500 ≤ (time - mid.timing.tRx).toNat ∧ (time - mid.timing.tRx).toNat < 1000) ∧
    (mid.timing.attSeen = true → 900 ≤ (time - mid.timing.tAtt).toNat) ∧
    mid.timing.windowUsed = false ∧ t.timing.tAtt = time ∧ t.timing.windowUsed = true ∧
    ∃ k, slotPending mid k = true ∧ slotPending t k = false) ∧
  ∀ mid : State,
    (mid.tx.txBusy = true → tickSend mid = mid) ∧
    (0 < mid.framer.len → tickSend mid = mid) ∧
    ((∀ z, mid.respPending.get z = false) →
      quiet mid = false ∧ mid.timing.eosFlag = false ∨ spacingOk mid = false ∨ mid.timing.windowUsed = true ∨
        (∀ k, slotPending mid k = false) → tickSend mid = mid)

/-- R110 over runs: once a window is used, no further slot is drained until a non-echo byte (or a reset) is applied: through any
number of steps whose events do not open a window, no attempt is noted, no slot is taken for sending, and the window stays used. -/
def Obligations.OneDrainPerWindow : Prop :=
  ∀ (n : Nat) (s t : State), s.timing.windowUsed = true → core.run n s = .next t →
    (∀ (k : Nat) (mid : State) (e : Event) (rest : List Event), k < n → core.run k s = .next mid →
      mid.inputs = e :: rest → ¬ OpensWindow mid e) →
    t.timing.windowUsed = true ∧ t.timing.attSeen = s.timing.attSeen ∧ t.timing.tAtt = s.timing.tAtt ∧
      t.timing.tCmd = s.timing.tCmd ∧ t.timing.tData = s.timing.tData ∧
      ∀ j, slotPending s j = true → slotPending t j = true

/-- R115: the response for the lowest zone that owes one: its bytes, with the desired setpoint clamped to the latched range (min when
min > max) or the latched one, On as the master has it, the emulated temperature; and nothing else changes: no window, no attempt,
no debounce. The bytes the UART takes are that frame (R116), from a canonical transmit buffer (which `Inv` says every reachable one
is). -/
def Obligations.ResponseGoesFirst : Prop :=
  ∀ (s : State) (z : Zone) (m : MtzFields) (sp b2 b3 : Byte) (raw : Int) (frame : List Byte),
    s.tx.txBusy = false → s.framer.len = 0 → s.respPending.get z = true →
    (∀ z', z'.number < z.number → s.respPending.get z' = false) →
    m = (s.latches.mtz.get z).value → raw = rawFromTemp (s.emu.emuTemp.get z).toInt →
    (s.emu.desiredValid.get z = false → sp.toNat = m.sp.toNat) →
    (s.emu.desiredValid.get z = true → sp.toNat = max m.min.toNat (min (s.emu.desiredSp.get z).toNat m.max.toNat)) →
    b2 = (if m.zoneOn then 0x80 else 0) ||| BitVec.ofInt 8 (raw % 1024 / 256) → b3 = BitVec.ofInt 8 raw →
    frame = [0xC0 ||| BitVec.ofNat 8 z.number, sp, b2, b3, checksum [0xC0 ||| BitVec.ofNat 8 z.number, sp, b2, b3]] →
    (memoryWf s.tx.txBuf = true → txBytes (tickSend s) = frame) ∧
    tickSend s = { s with
      respPending := s.respPending.set z false
      tx :=
        { txBusy := true
          txBuf := memoryWriteAll s.tx.txBuf 0 frame
          txLen := 5
          txStart := s.now
          de := s.params.hasDe }
      out := { s.out with txStrobe := true } }

/-- R117: TxComplete releases the transmitter and the write-enable and opens the echo window; with nothing in flight it is ignored. That
the output ports are cleared, by an ignored one too, is the model's choice (assumption 4). -/
def Obligations.TxCompleteReleasesTheBus : Prop :=
  ∀ (s : State) (t : Word) (rest : List Event), s.inputs = .txComplete t :: rest →
    (s.tx.txBusy = false → step s = .next { s with inputs := rest, out := ⟨false, .none⟩ }) ∧
    (s.tx.txBusy = true → step s = .next { s with
      inputs := rest, now := t, out := ⟨false, .none⟩
      tx := { s.tx with txBusy := false, de := false }
      timing := { s.timing with txEndSeen := true, tTxEnd := t } })

/-- R118: `de = 1` implies `txBusy = 1` after reset, and every step keeps it; while `txBusy` = 1 every byte is an echo byte, and no
step but the end of the transmission and a reset touches the transmitter, so none starts another. The clause on the strobe rests on
the model's choices that every event clears it (assumption 4) and that a step with no event left changes nothing (assumption 3). -/
def Obligations.HalfDuplexHolds : Prop :=
  (∀ p : Params, (State.resetWith p).tx.de = true → (State.resetWith p).tx.txBusy = true) ∧
  ∀ s t : State, step s = .next t →
    ((s.tx.de = true → s.tx.txBusy = true) → t.tx.de = true → t.tx.txBusy = true) ∧
    (s.tx.txBusy = true →
      (∀ u : Word, isEchoByte { s with now := u } = true) ∧ t.out.txStrobe = (s.out.txStrobe && s.inputs.isEmpty) ∧
      ((∀ u rest, s.inputs ≠ .txComplete u :: rest) → (∀ rest, s.inputs ≠ .reset :: rest) → t.tx = s.tx))

/-! ### Reset, parameters, the invariant -/

/-- R160: a reset sets every element to the value of the rule, keeps the parameters and the events still to come (assumption 18);
after it nothing is being received, no debounce is active, no bus quiet is seen and no slot is pending. -/
def Obligations.ResetSetsEveryElement : Prop :=
  ∀ (s : State) (rest : List Event), s.inputs = .reset :: rest →
    ∃ t, step s = .next t ∧ t.params = s.params ∧ t.inputs = rest ∧ t.now = 0 ∧
      t.framer = { buf := [], len := 0, tLast := 0, echoAcc := false } ∧
      (∀ a, memoryRead t.framer.buf a = 0 ∧ memoryRead t.tx.txBuf a = 0) ∧
      t.timing = ⟨false, 0, false, 0, false, 0, false, 0, false, 0, false, 0, false, false⟩ ∧
      t.tx = { txBusy := false, txBuf := [], txLen := 0, txStart := 0, de := false } ∧
      (t.slots.opMode = ⟨0, false⟩ ∧ t.slots.zoneState = ⟨0, false⟩ ∧ t.slots.fanMode = ⟨0, false⟩ ∧
        t.slots.masterSp = ⟨0, false⟩ ∧ t.slots.customSp = ⟨⟨0, 0⟩, false⟩ ∧
        ∀ z, t.slots.mtz.get z = ⟨mtzZero, false⟩) ∧
      (∀ z, t.respPending.get z = false ∧ t.latches.zw.get z = ⟨wallZero, false⟩ ∧
        t.latches.mtz.get z = ⟨mtzZero, false⟩ ∧ t.emu.controlled.get z = false ∧ t.emu.emuTempValid.get z = false ∧
        t.emu.emuTemp.get z = 0 ∧ t.emu.desiredValid.get z = false ∧ t.emu.desiredSp.get z = 0) ∧
      t.latches.sm = ⟨List.replicate 23 0, false⟩ ∧ t.latches.sm2 = ⟨List.replicate 18 0, false⟩ ∧
      t.regs.status = 0 ∧ (∀ k, counterOf t.regs.cnt k = 0) ∧ t.regs.cntFrames = 0 ∧ t.regs.config = 0 ∧
      receivingData t = false ∧ debounceActive t = false ∧ quiet t = false ∧ highestPending t = none

/-- R44, R160: no step changes the parameters; and a step takes one event, or none when there is none (assumption 3). -/
def Obligations.ParametersNeverChange : Prop :=
  ∀ s t : State, step s = .next t → t.params = s.params ∧ t.inputs = s.inputs.tail

/-- The invariant holds after reset under any parameters in their ranges (R160), and with the parameters that `State.reset` holds
by the model's choice (assumption 1). -/
def Obligations.ResetMeetsTheInvariant : Prop :=
  (∀ p : Params, p.valid = true → Inv (State.resetWith p)) ∧ Inv State.reset

/-- Every step keeps the invariant, from every state that meets it (the fields of `Inv` name the rules). -/
def Obligations.StepKeepsTheInvariant : Prop :=
  ∀ s t : State, Inv s → step s = .next t → Inv t

/-- R148: no condition stops the machine: from every state whose fill level is within the buffer, every event is taken to a next
state; and no instruction ever stops. -/
def Obligations.NothingStopsTheMachine : Prop :=
  (∀ s : State, s.framer.len ≤ s.params.frameCap → Runs (step s)) ∧ ∀ (i : Instr) (s : State), Runs (exec i s)
end

