-- ==== Sys2Proof/Laws/Decode.lean ====
section
/-! SUPPORT. The laws of the classifier and of the host selectors: what an argument list of the wrong length gives, and what a tag no
command has gives (R59, R80, R145). -/

namespace Sys2Proof

/-! ### The classifier -/

/-- A tag no command has passes the command rows. -/
theorem commandRules_miss : ∀ tag : Byte, isCommandTag tag = false →
    commandRules.find? (fun r => tag &&& r.mask == r.value) = none := by
  intro tag h
  simp only [isCommandTag, Bool.or_eq_false_iff, beq_eq_false_iff_ne, ne_eq] at h
  have h255 : ∀ t : Byte, t &&& 0xFF = t := by
    intro t
    have : (0xFF : Byte) = BitVec.allOnes 8 := rfl
    rw [this, BitVec.and_allOnes]
  have h1 : ¬tag = 0x3A := h.1.1.1.1
  have h2 : ¬tag = 0x3B := h.1.1.1.2
  have h3 : ¬tag = 0x3C := h.1.1.2
  have h4 : ¬tag = 0x3D := h.1.2
  have h5 : ¬tag = 0x3F := h.2
  simp only [commandRules, List.find?_cons, List.find?_nil, h255, beq_eq_false_iff_ne.mpr h1,
    beq_eq_false_iff_ne.mpr h2, beq_eq_false_iff_ne.mpr h3, beq_eq_false_iff_ne.mpr h4, beq_eq_false_iff_ne.mpr h5]

/-- The broadcast rows of the classifier are the broadcast rules (R80). -/
theorem bcastRows_find (rules : List BcastRule) (tag : Byte) :
    (rules.map (fun r => (⟨r.mask, r.value, .bcast r.type, r.length⟩ : ClassRule))).find?
        (fun r => tag &&& r.mask == r.value) =
      (rules.find? (fun r => r.hits tag)).map (fun r => ⟨r.mask, r.value, .bcast r.type, r.length⟩) := by
  rw [List.find?_map]
  rfl

/-! ### Host selectors -/

/-! Each row of R59, by its selector. -/

theorem decodeHost_01 (args : List Byte) :
    decodeHost 0x01#8 args = args1 0x01#8 args (fun on => .setSystemOn (on.getLsbD 0)) := rfl

theorem decodeHost_02 (args : List Byte) :
    decodeHost 0x02#8 args = args1 0x02#8 args (fun mode => .setOperatingMode mode) := rfl

theorem decodeHost_03 (args : List Byte) :
    decodeHost 0x03#8 args = args1 0x03#8 args (fun speed => .setFanSpeed speed) := rfl

theorem decodeHost_04 (args : List Byte) :
    decodeHost 0x04#8 args = args2 0x04#8 args (fun speed cont => .setFanSpeedAbsolute speed cont) := rfl

theorem decodeHost_05 (args : List Byte) :
    decodeHost 0x05#8 args = args1 0x05#8 args (fun cont => .setContinuousFanMode cont) := rfl

theorem decodeHost_06 (args : List Byte) :
    decodeHost 0x06#8 args = args2 0x06#8 args (fun hi lo => .setMasterSetpoint (half hi lo)) := rfl

theorem decodeHost_07 (args : List Byte) :
    decodeHost 0x07#8 args = args2 0x07#8 args (fun zone on => .setZoneOn zone (on.getLsbD 0)) := rfl

theorem decodeHost_08 (args : List Byte) :
    decodeHost 0x08#8 args = args4 0x08#8 args (fun zone hi lo adj => .setZoneSetpointTemperature zone (half hi lo) (adj.getLsbD 0)) := rfl

theorem decodeHost_09 (args : List Byte) :
    decodeHost 0x09#8 args = args3 0x09#8 args (fun zone hi lo => .setZoneCurrentTemperature zone (half hi lo)) := rfl

theorem decodeHost_0A (args : List Byte) :
    decodeHost 0x0A#8 args = args2 0x0A#8 args (fun zone en => .setControlZone zone (en.getLsbD 0)) := rfl

theorem decodeHost_0B (args : List Byte) :
    decodeHost 0x0B#8 args = args6 0x0B#8 args (fun zone f => .sendZoneMasterOverride zone f) := rfl

theorem decodeHost_0C (args : List Byte) :
    decodeHost 0x0C#8 args = args2 0x0C#8 args (fun hi lo => .clearStatus (half hi lo)) := rfl

theorem decodeHost_0D (args : List Byte) :
    decodeHost 0x0D#8 args = args1 0x0D#8 args (fun v => .writeConfig v) := rfl

theorem decodeHost_0E (args : List Byte) :
    decodeHost 0x0E#8 args = argsBytes 0x0E#8 args (fun n bytes => .processMessage n bytes) := rfl

theorem decodeHost_10 (args : List Byte) :
    decodeHost 0x10#8 args = args1 0x10#8 args (fun n => .readReg n) := rfl

theorem decodeHost_11 (args : List Byte) :
    decodeHost 0x11#8 args = args0 0x11#8 args .getOperatingMode := rfl

theorem decodeHost_12 (args : List Byte) :
    decodeHost 0x12#8 args = args0 0x12#8 args .getFanMode := rfl

theorem decodeHost_13 (args : List Byte) :
    decodeHost 0x13#8 args = args0 0x13#8 args .getMaster := rfl

theorem decodeHost_14 (args : List Byte) :
    decodeHost 0x14#8 args = args1 0x14#8 args (fun zone => .getZone zone) := rfl

theorem decodeHost_15 (args : List Byte) :
    decodeHost 0x15#8 args = args0 0x15#8 args .getCompressor := rfl

theorem decodeHost_16 (args : List Byte) :
    decodeHost 0x16#8 args = args0 0x16#8 args .receivingData := rfl

theorem decodeHost_17 (args : List Byte) :
    decodeHost 0x17#8 args = args0 0x17#8 args .pendingCount := rfl

theorem args0_other {sel : Byte} {args : List Byte} (k : Instr) (h : (args.length == 0) = false) :
    args0 sel args k = .unassignedSelector sel args := by
  unfold args0
  split
  · simp at h
  · rfl

theorem args1_other {sel : Byte} {args : List Byte} (k : Byte → Instr) (h : (args.length == 1) = false) :
    args1 sel args k = .unassignedSelector sel args := by
  unfold args1
  split
  · simp at h
  · rfl

theorem args2_other {sel : Byte} {args : List Byte} (k : Byte → Byte → Instr) (h : (args.length == 2) = false) :
    args2 sel args k = .unassignedSelector sel args := by
  unfold args2
  split
  · simp at h
  · rfl

theorem args3_other {sel : Byte} {args : List Byte} (k : Byte → Byte → Byte → Instr) (h : (args.length == 3) = false) :
    args3 sel args k = .unassignedSelector sel args := by
  unfold args3
  split
  · simp at h
  · rfl

theorem args4_other {sel : Byte} {args : List Byte} (k : Byte → Byte → Byte → Byte → Instr) (h : (args.length == 4) = false) :
    args4 sel args k = .unassignedSelector sel args := by
  unfold args4
  split
  · simp at h
  · rfl

theorem args6_other {sel : Byte} {args : List Byte} (k : Byte → MtzBits → Instr) (h : (args.length == 6) = false) :
    args6 sel args k = .unassignedSelector sel args := by
  unfold args6
  split
  · simp at h
  · rfl

theorem argsBytes_other {sel : Byte} {args : List Byte} (k : BitVec 9 → List Byte → Instr)
    (h : (match args with
      | [] => false
      | n :: bytes => decide (bytes.length ≤ 256 ∧ bytes.length % 256 = n.toNat)) = false) :
    argsBytes sel args k = .unassignedSelector sel args := by
  unfold argsBytes
  split
  · rfl
  · rw [if_neg (of_decide_eq_false h)]

/-- A selector and arguments that no row of R59 takes decode to the unassigned selector (R145). -/
theorem decodeHost_not_taken {sel : Byte} {args : List Byte} (h : selectorTakes sel args = false) :
    decodeHost sel args = .unassignedSelector sel args := by
  unfold selectorTakes at h
  unfold decodeHost
  by_cases h01 : sel = 0x01#8
  · rw [if_pos h01] at h ⊢; exact args1_other _ h
  rw [if_neg h01] at h ⊢
  by_cases h02 : sel = 0x02#8
  · rw [if_pos h02] at h ⊢; exact args1_other _ h
  rw [if_neg h02] at h ⊢
  by_cases h03 : sel = 0x03#8
  · rw [if_pos h03] at h ⊢; exact args1_other _ h
  rw [if_neg h03] at h ⊢
  by_cases h04 : sel = 0x04#8
  · rw [if_pos h04] at h ⊢; exact args2_other _ h
  rw [if_neg h04] at h ⊢
  by_cases h05 : sel = 0x05#8
  · rw [if_pos h05] at h ⊢; exact args1_other _ h
  rw [if_neg h05] at h ⊢
  by_cases h06 : sel = 0x06#8
  · rw [if_pos h06] at h ⊢; exact args2_other _ h
  rw [if_neg h06] at h ⊢
  by_cases h07 : sel = 0x07#8
  · rw [if_pos h07] at h ⊢; exact args2_other _ h
  rw [if_neg h07] at h ⊢
  by_cases h08 : sel = 0x08#8
  · rw [if_pos h08] at h ⊢; exact args4_other _ h
  rw [if_neg h08] at h ⊢
  by_cases h09 : sel = 0x09#8
  · rw [if_pos h09] at h ⊢; exact args3_other _ h
  rw [if_neg h09] at h ⊢
  by_cases h0A : sel = 0x0A#8
  · rw [if_pos h0A] at h ⊢; exact args2_other _ h
  rw [if_neg h0A] at h ⊢
  by_cases h0B : sel = 0x0B#8
  · rw [if_pos h0B] at h ⊢; exact args6_other _ h
  rw [if_neg h0B] at h ⊢
  by_cases h0C : sel = 0x0C#8
  · rw [if_pos h0C] at h ⊢; exact args2_other _ h
  rw [if_neg h0C] at h ⊢
  by_cases h0D : sel = 0x0D#8
  · rw [if_pos h0D] at h ⊢; exact args1_other _ h
  rw [if_neg h0D] at h ⊢
  by_cases h0E : sel = 0x0E#8
  · rw [if_pos h0E] at h ⊢; exact argsBytes_other _ h
  rw [if_neg h0E] at h ⊢
  by_cases h10 : sel = 0x10#8
  · rw [if_pos h10] at h ⊢; exact args1_other _ h
  rw [if_neg h10] at h ⊢
  by_cases h11 : sel = 0x11#8
  · rw [if_pos h11] at h ⊢; exact args0_other _ h
  rw [if_neg h11] at h ⊢
  by_cases h12 : sel = 0x12#8
  · rw [if_pos h12] at h ⊢; exact args0_other _ h
  rw [if_neg h12] at h ⊢
  by_cases h13 : sel = 0x13#8
  · rw [if_pos h13] at h ⊢; exact args0_other _ h
  rw [if_neg h13] at h ⊢
  by_cases h14 : sel = 0x14#8
  · rw [if_pos h14] at h ⊢; exact args1_other _ h
  rw [if_neg h14] at h ⊢
  by_cases h15 : sel = 0x15#8
  · rw [if_pos h15] at h ⊢; exact args0_other _ h
  rw [if_neg h15] at h ⊢
  by_cases h16 : sel = 0x16#8
  · rw [if_pos h16] at h ⊢; exact args0_other _ h
  rw [if_neg h16] at h ⊢
  by_cases h17 : sel = 0x17#8
  · rw [if_pos h17] at h ⊢; exact args0_other _ h
  rw [if_neg h17]

end Sys2Proof
end

