-- ==== Sys2Proof/Laws/Memory.lean ====
section
/-! SUPPORT. The laws of the byte stores: read after write, and the canonical form that every operation keeps (R34, R35). -/

namespace Sys2Proof.Machine

/-- Every listed address of a canonical store is above a bound. -/
def memoryAbove (n : Nat) (m : Memory) : Prop := ∀ c ∈ m, n < c.1

theorem memoryWf_cons {k : Nat} {v : Byte} {m : Memory} :
    memoryWf ((k, v) :: m) = true ↔ v ≠ 0 ∧ memoryAbove k m ∧ memoryWf m = true := by
  induction m generalizing k v with
  | nil => simp [memoryWf, memoryAbove]
  | cons c m ih =>
    obtain ⟨k', v'⟩ := c
    simp only [memoryWf, Bool.and_eq_true, bne_iff_ne, ne_eq, decide_eq_true_eq, memoryAbove, List.mem_cons,
      forall_eq_or_imp]
    constructor
    · rintro ⟨⟨hv, hk⟩, hw⟩
      obtain ⟨-, ha, -⟩ := ih.mp hw
      exact ⟨hv, ⟨hk, fun c hc => lt_trans hk (ha c hc)⟩, hw⟩
    · rintro ⟨hv, ⟨hk, -⟩, hw⟩
      exact ⟨⟨hv, hk⟩, hw⟩

/-- An address below every listed one reads 0. -/
theorem memoryRead_above {m : Memory} {n a : Nat} (h : memoryAbove n m) (ha : a ≤ n) : memoryRead m a = 0 := by
  induction m with
  | nil => rfl
  | cons c m ih =>
    obtain ⟨k, v⟩ := c
    have hk : n < k := h (k, v) (by simp)
    have hm : memoryAbove n m := fun c hc => h c (by simp [hc])
    have hne : k ≠ a := by omega
    simp [memoryRead, hne, ih hm]

/-- Read after write at the same address. -/
theorem memoryRead_write_self {m : Memory} (hw : memoryWf m = true) (a : Nat) (v : Byte) :
    memoryRead (memoryWrite m a v) a = v := by
  induction m with
  | nil =>
    by_cases hv : v = 0#8
    · simp [memoryWrite, memoryRead, hv]
    · simp [memoryWrite, memoryRead, hv]
  | cons c m ih =>
    obtain ⟨k, w⟩ := c
    obtain ⟨-, hab, hm⟩ := memoryWf_cons.mp hw
    by_cases h1 : a < k
    · by_cases hv : v = 0#8
      · have hne : k ≠ a := by omega
        simp [memoryWrite, h1, hv, memoryRead, hne, memoryRead_above hab (le_of_lt h1)]
      · simp [memoryWrite, h1, hv, memoryRead]
    · by_cases h2 : a = k
      · subst h2
        by_cases hv : v = 0#8
        · simp [memoryWrite, hv, memoryRead_above hab le_rfl]
        · simp [memoryWrite, hv, memoryRead]
      · have hne : k ≠ a := fun e => h2 e.symm
        simp [memoryWrite, h1, h2, memoryRead, hne, ih hm]

/-- A write leaves every other address alone. -/
theorem memoryRead_write_ne (m : Memory) {a b : Nat} (v : Byte) (h : b ≠ a) :
    memoryRead (memoryWrite m a v) b = memoryRead m b := by
  induction m with
  | nil =>
    by_cases hv : v = 0#8
    · simp [memoryWrite, hv]
    · simp [memoryWrite, memoryRead, hv, h.symm]
  | cons c m ih =>
    obtain ⟨k, w⟩ := c
    by_cases h1 : a < k
    · by_cases hv : v = 0#8
      · simp [memoryWrite, h1, hv]
      · simp [memoryWrite, h1, hv, memoryRead, h.symm]
    · by_cases h2 : a = k
      · subst h2
        by_cases hv : v = 0#8
        · simp [memoryWrite, hv, memoryRead, h.symm]
        · simp [memoryWrite, hv, memoryRead, h.symm]
      · by_cases h3 : k = b
        · subst h3; simp [memoryWrite, h1, h2, memoryRead]
        · simp [memoryWrite, h1, h2, memoryRead, h3, ih]

theorem memoryWrite_mem {m : Memory} {a : Nat} {v : Byte} {c : Host.Cell} (h : c ∈ memoryWrite m a v) :
    c = (a, v) ∨ c ∈ m := by
  induction m with
  | nil =>
    by_cases hv : v = 0#8 <;> simp_all [memoryWrite]
  | cons d m ih =>
    obtain ⟨k, w⟩ := d
    by_cases h1 : a < k
    · by_cases hv : v = 0#8 <;> simp_all [memoryWrite]
    · by_cases h2 : a = k
      · by_cases hv : v = 0#8 <;> simp_all [memoryWrite] <;> tauto
      · simp only [memoryWrite, h1, h2, if_false, List.mem_cons] at h ⊢
        rcases h with h | h
        · exact .inr (.inl h)
        · exact (ih h).imp_right .inr

/-- A write keeps the canonical form. -/
theorem memoryWf_write {m : Memory} (hw : memoryWf m = true) (a : Nat) (v : Byte) :
    memoryWf (memoryWrite m a v) = true := by
  induction m with
  | nil =>
    by_cases hv : v = 0#8
    · simp [memoryWrite, hv, memoryWf]
    · simp [memoryWrite, hv, memoryWf]
  | cons c m ih =>
    obtain ⟨k, w⟩ := c
    have hc := memoryWf_cons.mp hw
    by_cases h1 : a < k
    · by_cases hv : v = 0#8
      · simpa [memoryWrite, h1, hv] using hw
      · simp only [memoryWrite, h1, BitVec.ofNat_eq_ofNat, hv, if_true, if_false]
        refine memoryWf_cons.mpr ⟨hv, ?_, hw⟩
        intro c hcm
        rcases List.mem_cons.mp hcm with rfl | hcm
        · exact h1
        · exact lt_trans h1 (hc.2.1 c hcm)
    · by_cases h2 : a = k
      · subst h2
        by_cases hv : v = 0#8
        · simpa [memoryWrite, hv] using hc.2.2
        · simp only [memoryWrite, BitVec.ofNat_eq_ofNat, hv, lt_irrefl, if_true, if_false]
          exact memoryWf_cons.mpr ⟨hv, hc.2.1, hc.2.2⟩
      · simp only [memoryWrite, h1, h2, if_false]
        refine memoryWf_cons.mpr ⟨hc.1, ?_, ih hc.2.2⟩
        intro c hcm
        rcases memoryWrite_mem hcm with rfl | hcm
        · show k < a; omega
        · exact hc.2.1 c hcm

theorem memoryBelow_iff {n : Nat} {m : Memory} : memoryBelow n m = true ↔ ∀ c ∈ m, c.1 < n := by
  simp [memoryBelow]

/-- A write below a bound keeps every listed address below it. -/
theorem memoryBelow_write {n : Nat} {m : Memory} (hb : memoryBelow n m = true) {a : Nat} (ha : a < n) (v : Byte) :
    memoryBelow n (memoryWrite m a v) = true := by
  rw [memoryBelow_iff] at hb ⊢
  intro c hc
  rcases memoryWrite_mem hc with rfl | hc
  · exact ha
  · exact hb c hc

/-- Writing a run of bytes keeps the canonical form. -/
theorem memoryWf_writeAll {m : Memory} (hw : memoryWf m = true) (a : Nat) (bs : List Byte) :
    memoryWf (memoryWriteAll m a bs) = true := by
  induction bs generalizing m a with
  | nil => exact hw
  | cons b bs ih => exact ih (memoryWf_write hw a b) (a + 1)

theorem memoryBelow_writeAll {n : Nat} {m : Memory} (hb : memoryBelow n m = true) {a : Nat} {bs : List Byte}
    (h : a + bs.length ≤ n) : memoryBelow n (memoryWriteAll m a bs) = true := by
  induction bs generalizing m a with
  | nil => exact hb
  | cons b bs ih =>
    simp only [List.length_cons] at h
    exact ih (memoryBelow_write hb (by omega) b) (by omega)

/-- Outside a written run every address reads as before. -/
theorem memoryRead_writeAll_ne (m : Memory) (a : Nat) (bs : List Byte) {b : Nat} (h : b < a ∨ a + bs.length ≤ b) :
    memoryRead (memoryWriteAll m a bs) b = memoryRead m b := by
  induction bs generalizing m a with
  | nil => rfl
  | cons x bs ih =>
    simp only [List.length_cons] at h
    rw [memoryWriteAll, ih _ _ (by omega), memoryRead_write_ne m x (by omega)]

/-- Inside a written run every address reads its byte. -/
theorem memoryRead_writeAll {m : Memory} (hw : memoryWf m = true) (a : Nat) (bs : List Byte) {i : Nat}
    (h : i < bs.length) : memoryRead (memoryWriteAll m a bs) (a + i) = bs.getD i 0 := by
  induction bs generalizing m a i with
  | nil => simp at h
  | cons x bs ih =>
    cases i with
    | zero =>
      rw [memoryWriteAll, memoryRead_writeAll_ne _ _ _ (by omega)]
      simp [memoryRead_write_self hw]
    | succ i =>
      simp only [List.length_cons] at h
      have := ih (memoryWf_write hw a x) (a + 1) (i := i) (by omega)
      rw [memoryWriteAll, show a + (i + 1) = a + 1 + i by omega, this]
      simp

/-- The stores after reset are canonical (R160). -/
theorem reset_memory_wf (p : Params) :
    memoryWf (State.resetWith p).framer.buf = true ∧ memoryWf (State.resetWith p).tx.txBuf = true := ⟨rfl, rfl⟩

end Sys2Proof.Machine
end

