-- ==== Sys2Proof/Laws/State.lean ====
section
/-! SUPPORT. What each named update of the state does to each field, true by `rfl`: no later proof unfolds a record update. -/

namespace Sys2Proof.Machine

variable (s : State)

/-! ### `raiseEvent` -/

@[simp] theorem raiseEvent_params (k : EventCode) : (raiseEvent k s).params = s.params := rfl
@[simp] theorem raiseEvent_inputs (k : EventCode) : (raiseEvent k s).inputs = s.inputs := rfl
@[simp] theorem raiseEvent_out (k : EventCode) : (raiseEvent k s).out = s.out := rfl
@[simp] theorem raiseEvent_now (k : EventCode) : (raiseEvent k s).now = s.now := rfl
@[simp] theorem raiseEvent_framer (k : EventCode) : (raiseEvent k s).framer = s.framer := rfl
@[simp] theorem raiseEvent_timing (k : EventCode) : (raiseEvent k s).timing = s.timing := rfl
@[simp] theorem raiseEvent_tx (k : EventCode) : (raiseEvent k s).tx = s.tx := rfl
@[simp] theorem raiseEvent_slots (k : EventCode) : (raiseEvent k s).slots = s.slots := rfl
@[simp] theorem raiseEvent_respPending (k : EventCode) : (raiseEvent k s).respPending = s.respPending := rfl
@[simp] theorem raiseEvent_latches (k : EventCode) : (raiseEvent k s).latches = s.latches := rfl
@[simp] theorem raiseEvent_emu (k : EventCode) : (raiseEvent k s).emu = s.emu := rfl
@[simp] theorem raiseEvent_config (k : EventCode) : (raiseEvent k s).regs.config = s.regs.config := rfl
@[simp] theorem raiseEvent_cntFrames (k : EventCode) : (raiseEvent k s).regs.cntFrames = s.regs.cntFrames := rfl
@[simp] theorem raiseEvent_cnt (k : EventCode) : (raiseEvent k s).regs.cnt = countEvent s.regs.cnt k := rfl
@[simp] theorem raiseEvent_status (k : EventCode) :
    (raiseEvent k s).regs.status = s.regs.status ||| (1#16 <<< eventCode k) := rfl

/-! ### `refreshLiveness` -/

@[simp] theorem refreshLiveness_params : (refreshLiveness s).params = s.params := rfl
@[simp] theorem refreshLiveness_inputs : (refreshLiveness s).inputs = s.inputs := rfl
@[simp] theorem refreshLiveness_out : (refreshLiveness s).out = s.out := rfl
@[simp] theorem refreshLiveness_now : (refreshLiveness s).now = s.now := rfl
@[simp] theorem refreshLiveness_framer : (refreshLiveness s).framer = s.framer := rfl
@[simp] theorem refreshLiveness_tx : (refreshLiveness s).tx = s.tx := rfl
@[simp] theorem refreshLiveness_slots : (refreshLiveness s).slots = s.slots := rfl
@[simp] theorem refreshLiveness_respPending : (refreshLiveness s).respPending = s.respPending := rfl
@[simp] theorem refreshLiveness_latches : (refreshLiveness s).latches = s.latches := rfl
@[simp] theorem refreshLiveness_emu : (refreshLiveness s).emu = s.emu := rfl
@[simp] theorem refreshLiveness_regs : (refreshLiveness s).regs = s.regs := rfl
@[simp] theorem refreshLiveness_timing :
    (refreshLiveness s).timing = { s.timing with frameSeen := true, tFrame := s.now } := rfl

/-! ### `countFrame` -/

@[simp] theorem countFrame_params : (countFrame s).params = s.params := rfl
@[simp] theorem countFrame_inputs : (countFrame s).inputs = s.inputs := rfl
@[simp] theorem countFrame_out : (countFrame s).out = s.out := rfl
@[simp] theorem countFrame_now : (countFrame s).now = s.now := rfl
@[simp] theorem countFrame_framer : (countFrame s).framer = s.framer := rfl
@[simp] theorem countFrame_timing : (countFrame s).timing = s.timing := rfl
@[simp] theorem countFrame_tx : (countFrame s).tx = s.tx := rfl
@[simp] theorem countFrame_slots : (countFrame s).slots = s.slots := rfl
@[simp] theorem countFrame_respPending : (countFrame s).respPending = s.respPending := rfl
@[simp] theorem countFrame_latches : (countFrame s).latches = s.latches := rfl
@[simp] theorem countFrame_emu : (countFrame s).emu = s.emu := rfl
@[simp] theorem countFrame_config : (countFrame s).regs.config = s.regs.config := rfl
@[simp] theorem countFrame_cntFrames : (countFrame s).regs.cntFrames = s.regs.cntFrames + 1 := rfl
@[simp] theorem countFrame_cnt : (countFrame s).regs.cnt = s.regs.cnt := rfl
@[simp] theorem countFrame_status : (countFrame s).regs.status = s.regs.status := rfl

/-! ### `txStart` -/

@[simp] theorem txStart_params (bytes : List Byte) : (txStart bytes s).params = s.params := rfl
@[simp] theorem txStart_inputs (bytes : List Byte) : (txStart bytes s).inputs = s.inputs := rfl
@[simp] theorem txStart_now (bytes : List Byte) : (txStart bytes s).now = s.now := rfl
@[simp] theorem txStart_framer (bytes : List Byte) : (txStart bytes s).framer = s.framer := rfl
@[simp] theorem txStart_timing (bytes : List Byte) : (txStart bytes s).timing = s.timing := rfl
@[simp] theorem txStart_slots (bytes : List Byte) : (txStart bytes s).slots = s.slots := rfl
@[simp] theorem txStart_respPending (bytes : List Byte) : (txStart bytes s).respPending = s.respPending := rfl
@[simp] theorem txStart_latches (bytes : List Byte) : (txStart bytes s).latches = s.latches := rfl
@[simp] theorem txStart_emu (bytes : List Byte) : (txStart bytes s).emu = s.emu := rfl
@[simp] theorem txStart_regs (bytes : List Byte) : (txStart bytes s).regs = s.regs := rfl
@[simp] theorem txStart_tx (bytes : List Byte) :
    (txStart bytes s).tx = ⟨true, memoryWriteAll s.tx.txBuf 0 bytes, bytes.length, s.now, s.params.hasDe⟩ := rfl
@[simp] theorem txStart_out (bytes : List Byte) : (txStart bytes s).out = { s.out with txStrobe := true } := rfl

/-! ### `answer` -/

@[simp] theorem answer_params (r : HostResult) : (answer r s).params = s.params := rfl
@[simp] theorem answer_inputs (r : HostResult) : (answer r s).inputs = s.inputs := rfl
@[simp] theorem answer_now (r : HostResult) : (answer r s).now = s.now := rfl
@[simp] theorem answer_framer (r : HostResult) : (answer r s).framer = s.framer := rfl
@[simp] theorem answer_timing (r : HostResult) : (answer r s).timing = s.timing := rfl
@[simp] theorem answer_tx (r : HostResult) : (answer r s).tx = s.tx := rfl
@[simp] theorem answer_slots (r : HostResult) : (answer r s).slots = s.slots := rfl
@[simp] theorem answer_respPending (r : HostResult) : (answer r s).respPending = s.respPending := rfl
@[simp] theorem answer_latches (r : HostResult) : (answer r s).latches = s.latches := rfl
@[simp] theorem answer_emu (r : HostResult) : (answer r s).emu = s.emu := rfl
@[simp] theorem answer_regs (r : HostResult) : (answer r s).regs = s.regs := rfl
@[simp] theorem answer_out (r : HostResult) : (answer r s).out = { s.out with hostResult := r } := rfl

/-! ### `noteByte` -/

@[simp] theorem noteByte_params : (noteByte s).params = s.params := rfl
@[simp] theorem noteByte_inputs : (noteByte s).inputs = s.inputs := rfl
@[simp] theorem noteByte_out : (noteByte s).out = s.out := rfl
@[simp] theorem noteByte_now : (noteByte s).now = s.now := rfl
@[simp] theorem noteByte_framer : (noteByte s).framer = s.framer := rfl
@[simp] theorem noteByte_tx : (noteByte s).tx = s.tx := rfl
@[simp] theorem noteByte_slots : (noteByte s).slots = s.slots := rfl
@[simp] theorem noteByte_respPending : (noteByte s).respPending = s.respPending := rfl
@[simp] theorem noteByte_latches : (noteByte s).latches = s.latches := rfl
@[simp] theorem noteByte_emu : (noteByte s).emu = s.emu := rfl
@[simp] theorem noteByte_regs : (noteByte s).regs = s.regs := rfl
@[simp] theorem noteByte_rx : (noteByte s).timing.rxSeen = true ∧ (noteByte s).timing.tRx = s.now := ⟨rfl, rfl⟩
@[simp] theorem noteByte_windowUsed :
    (noteByte s).timing.windowUsed = if isEchoByte s then s.timing.windowUsed else false := rfl
@[simp] theorem noteByte_eosFlag :
    (noteByte s).timing.eosFlag = if isEchoByte s then s.timing.eosFlag else false := rfl
@[simp] theorem noteByte_frameSeen : (noteByte s).timing.frameSeen = s.timing.frameSeen := rfl
@[simp] theorem noteByte_tFrame : (noteByte s).timing.tFrame = s.timing.tFrame := rfl
@[simp] theorem noteByte_txEndSeen : (noteByte s).timing.txEndSeen = s.timing.txEndSeen := rfl
@[simp] theorem noteByte_tTxEnd : (noteByte s).timing.tTxEnd = s.timing.tTxEnd := rfl
@[simp] theorem noteByte_attSeen : (noteByte s).timing.attSeen = s.timing.attSeen := rfl
@[simp] theorem noteByte_tAtt : (noteByte s).timing.tAtt = s.timing.tAtt := rfl
@[simp] theorem noteByte_cmdSeen : (noteByte s).timing.cmdSeen = s.timing.cmdSeen := rfl
@[simp] theorem noteByte_tCmd : (noteByte s).timing.tCmd = s.timing.tCmd := rfl
@[simp] theorem noteByte_dataSeen : (noteByte s).timing.dataSeen = s.timing.dataSeen := rfl
@[simp] theorem noteByte_tData : (noteByte s).timing.tData = s.timing.tData := rfl

/-! ### `clearOutputs` -/

@[simp] theorem clearOutputs_params : (clearOutputs s).params = s.params := rfl
@[simp] theorem clearOutputs_inputs : (clearOutputs s).inputs = s.inputs := rfl
@[simp] theorem clearOutputs_now : (clearOutputs s).now = s.now := rfl
@[simp] theorem clearOutputs_framer : (clearOutputs s).framer = s.framer := rfl
@[simp] theorem clearOutputs_timing : (clearOutputs s).timing = s.timing := rfl
@[simp] theorem clearOutputs_tx : (clearOutputs s).tx = s.tx := rfl
@[simp] theorem clearOutputs_slots : (clearOutputs s).slots = s.slots := rfl
@[simp] theorem clearOutputs_respPending : (clearOutputs s).respPending = s.respPending := rfl
@[simp] theorem clearOutputs_latches : (clearOutputs s).latches = s.latches := rfl
@[simp] theorem clearOutputs_emu : (clearOutputs s).emu = s.emu := rfl
@[simp] theorem clearOutputs_regs : (clearOutputs s).regs = s.regs := rfl
@[simp] theorem clearOutputs_out : (clearOutputs s).out = ⟨false, .none⟩ := rfl

/-! ### `latchWall` -/

@[simp] theorem latchWall_params (z : Zone) (r : WallFields) : (latchWall z r s).params = s.params := rfl
@[simp] theorem latchWall_inputs (z : Zone) (r : WallFields) : (latchWall z r s).inputs = s.inputs := rfl
@[simp] theorem latchWall_out (z : Zone) (r : WallFields) : (latchWall z r s).out = s.out := rfl
@[simp] theorem latchWall_now (z : Zone) (r : WallFields) : (latchWall z r s).now = s.now := rfl
@[simp] theorem latchWall_framer (z : Zone) (r : WallFields) : (latchWall z r s).framer = s.framer := rfl
@[simp] theorem latchWall_timing (z : Zone) (r : WallFields) : (latchWall z r s).timing = s.timing := rfl
@[simp] theorem latchWall_tx (z : Zone) (r : WallFields) : (latchWall z r s).tx = s.tx := rfl
@[simp] theorem latchWall_slots (z : Zone) (r : WallFields) : (latchWall z r s).slots = s.slots := rfl
@[simp] theorem latchWall_respPending (z : Zone) (r : WallFields) : (latchWall z r s).respPending = s.respPending := rfl
@[simp] theorem latchWall_emu (z : Zone) (r : WallFields) : (latchWall z r s).emu = s.emu := rfl
@[simp] theorem latchWall_regs (z : Zone) (r : WallFields) : (latchWall z r s).regs = s.regs := rfl
@[simp] theorem latchWall_latches (z : Zone) (r : WallFields) :
    (latchWall z r s).latches = { s.latches with zw := s.latches.zw.set z ⟨r, true⟩ } := rfl

/-! ### `latchMtz` -/

@[simp] theorem latchMtz_params (z : Zone) (r : MtzFields) : (latchMtz z r s).params = s.params := rfl
@[simp] theorem latchMtz_inputs (z : Zone) (r : MtzFields) : (latchMtz z r s).inputs = s.inputs := rfl
@[simp] theorem latchMtz_out (z : Zone) (r : MtzFields) : (latchMtz z r s).out = s.out := rfl
@[simp] theorem latchMtz_now (z : Zone) (r : MtzFields) : (latchMtz z r s).now = s.now := rfl
@[simp] theorem latchMtz_framer (z : Zone) (r : MtzFields) : (latchMtz z r s).framer = s.framer := rfl
@[simp] theorem latchMtz_timing (z : Zone) (r : MtzFields) : (latchMtz z r s).timing = s.timing := rfl
@[simp] theorem latchMtz_tx (z : Zone) (r : MtzFields) : (latchMtz z r s).tx = s.tx := rfl
@[simp] theorem latchMtz_slots (z : Zone) (r : MtzFields) : (latchMtz z r s).slots = s.slots := rfl
@[simp] theorem latchMtz_emu (z : Zone) (r : MtzFields) : (latchMtz z r s).emu = s.emu := rfl
@[simp] theorem latchMtz_regs (z : Zone) (r : MtzFields) : (latchMtz z r s).regs = s.regs := rfl
@[simp] theorem latchMtz_latches (z : Zone) (r : MtzFields) :
    (latchMtz z r s).latches = { s.latches with mtz := s.latches.mtz.set z ⟨r, true⟩ } := rfl
@[simp] theorem latchMtz_respPending (z : Zone) (r : MtzFields) :
    (latchMtz z r s).respPending =
      if s.emu.controlled.get z && s.emu.emuTempValid.get z then s.respPending.set z true else s.respPending := rfl

/-! ### `latchSm` -/

@[simp] theorem latchSm_params (bytes : List Byte) : (latchSm bytes s).params = s.params := rfl
@[simp] theorem latchSm_inputs (bytes : List Byte) : (latchSm bytes s).inputs = s.inputs := rfl
@[simp] theorem latchSm_out (bytes : List Byte) : (latchSm bytes s).out = s.out := rfl
@[simp] theorem latchSm_now (bytes : List Byte) : (latchSm bytes s).now = s.now := rfl
@[simp] theorem latchSm_framer (bytes : List Byte) : (latchSm bytes s).framer = s.framer := rfl
@[simp] theorem latchSm_timing (bytes : List Byte) : (latchSm bytes s).timing = s.timing := rfl
@[simp] theorem latchSm_tx (bytes : List Byte) : (latchSm bytes s).tx = s.tx := rfl
@[simp] theorem latchSm_slots (bytes : List Byte) : (latchSm bytes s).slots = s.slots := rfl
@[simp] theorem latchSm_respPending (bytes : List Byte) : (latchSm bytes s).respPending = s.respPending := rfl
@[simp] theorem latchSm_emu (bytes : List Byte) : (latchSm bytes s).emu = s.emu := rfl
@[simp] theorem latchSm_regs (bytes : List Byte) : (latchSm bytes s).regs = s.regs := rfl
@[simp] theorem latchSm_latches (bytes : List Byte) :
    (latchSm bytes s).latches = { s.latches with sm := ⟨bytes, true⟩ } := rfl

/-! ### `latchSm2` -/

@[simp] theorem latchSm2_params (bytes : List Byte) : (latchSm2 bytes s).params = s.params := rfl
@[simp] theorem latchSm2_inputs (bytes : List Byte) : (latchSm2 bytes s).inputs = s.inputs := rfl
@[simp] theorem latchSm2_out (bytes : List Byte) : (latchSm2 bytes s).out = s.out := rfl
@[simp] theorem latchSm2_now (bytes : List Byte) : (latchSm2 bytes s).now = s.now := rfl
@[simp] theorem latchSm2_framer (bytes : List Byte) : (latchSm2 bytes s).framer = s.framer := rfl
@[simp] theorem latchSm2_timing (bytes : List Byte) : (latchSm2 bytes s).timing = s.timing := rfl
@[simp] theorem latchSm2_tx (bytes : List Byte) : (latchSm2 bytes s).tx = s.tx := rfl
@[simp] theorem latchSm2_slots (bytes : List Byte) : (latchSm2 bytes s).slots = s.slots := rfl
@[simp] theorem latchSm2_respPending (bytes : List Byte) : (latchSm2 bytes s).respPending = s.respPending := rfl
@[simp] theorem latchSm2_emu (bytes : List Byte) : (latchSm2 bytes s).emu = s.emu := rfl
@[simp] theorem latchSm2_regs (bytes : List Byte) : (latchSm2 bytes s).regs = s.regs := rfl
@[simp] theorem latchSm2_latches (bytes : List Byte) :
    (latchSm2 bytes s).latches = { s.latches with sm2 := ⟨bytes, true⟩ } := rfl

/-! ### `storeDesired` -/

@[simp] theorem storeDesired_params (z : Zone) (tgt : Int) : (storeDesired z tgt s).params = s.params := rfl
@[simp] theorem storeDesired_inputs (z : Zone) (tgt : Int) : (storeDesired z tgt s).inputs = s.inputs := rfl
@[simp] theorem storeDesired_out (z : Zone) (tgt : Int) : (storeDesired z tgt s).out = s.out := rfl
@[simp] theorem storeDesired_now (z : Zone) (tgt : Int) : (storeDesired z tgt s).now = s.now := rfl
@[simp] theorem storeDesired_framer (z : Zone) (tgt : Int) : (storeDesired z tgt s).framer = s.framer := rfl
@[simp] theorem storeDesired_timing (z : Zone) (tgt : Int) : (storeDesired z tgt s).timing = s.timing := rfl
@[simp] theorem storeDesired_tx (z : Zone) (tgt : Int) : (storeDesired z tgt s).tx = s.tx := rfl
@[simp] theorem storeDesired_respPending (z : Zone) (tgt : Int) : (storeDesired z tgt s).respPending = s.respPending := rfl
@[simp] theorem storeDesired_latches (z : Zone) (tgt : Int) : (storeDesired z tgt s).latches = s.latches := rfl
@[simp] theorem storeDesired_regs (z : Zone) (tgt : Int) : (storeDesired z tgt s).regs = s.regs := rfl
@[simp] theorem storeDesired_controlled (z : Zone) (tgt : Int) :
    (storeDesired z tgt s).emu.controlled = s.emu.controlled := rfl
@[simp] theorem storeDesired_mtz (z : Zone) (tgt : Int) : (storeDesired z tgt s).slots.mtz = s.slots.mtz := rfl

/-! ### `sendResponse` -/

@[simp] theorem sendResponse_params (z : Zone) : (sendResponse z s).params = s.params := rfl
@[simp] theorem sendResponse_inputs (z : Zone) : (sendResponse z s).inputs = s.inputs := rfl
@[simp] theorem sendResponse_now (z : Zone) : (sendResponse z s).now = s.now := rfl
@[simp] theorem sendResponse_framer (z : Zone) : (sendResponse z s).framer = s.framer := rfl
@[simp] theorem sendResponse_timing (z : Zone) : (sendResponse z s).timing = s.timing := rfl
@[simp] theorem sendResponse_slots (z : Zone) : (sendResponse z s).slots = s.slots := rfl
@[simp] theorem sendResponse_latches (z : Zone) : (sendResponse z s).latches = s.latches := rfl
@[simp] theorem sendResponse_emu (z : Zone) : (sendResponse z s).emu = s.emu := rfl
@[simp] theorem sendResponse_regs (z : Zone) : (sendResponse z s).regs = s.regs := rfl
@[simp] theorem sendResponse_tx (z : Zone) :
    (sendResponse z s).tx = ⟨true, memoryWriteAll s.tx.txBuf 0 (genWall (responseFields z s)), (genWall (responseFields z s)).length, s.now, s.params.hasDe⟩ := rfl
@[simp] theorem sendResponse_out (z : Zone) : (sendResponse z s).out = { s.out with txStrobe := true } := rfl
@[simp] theorem sendResponse_respPending (z : Zone) : (sendResponse z s).respPending = s.respPending.set z false := rfl

/-! ### `drain` -/

@[simp] theorem drain_params (k : SlotId) : (drain k s).params = s.params := rfl
@[simp] theorem drain_inputs (k : SlotId) : (drain k s).inputs = s.inputs := rfl
@[simp] theorem drain_now (k : SlotId) : (drain k s).now = s.now := rfl
@[simp] theorem drain_framer (k : SlotId) : (drain k s).framer = s.framer := rfl
@[simp] theorem drain_respPending (k : SlotId) : (drain k s).respPending = s.respPending := rfl
@[simp] theorem drain_latches (k : SlotId) : (drain k s).latches = s.latches := rfl
@[simp] theorem drain_emu (k : SlotId) : (drain k s).emu = s.emu := rfl
@[simp] theorem drain_regs (k : SlotId) : (drain k s).regs = s.regs := rfl
@[simp] theorem drain_tx (k : SlotId) :
    (drain k s).tx = ⟨true, memoryWriteAll s.tx.txBuf 0 (slotFrame s k), (slotFrame s k).length, s.now, s.params.hasDe⟩ := rfl
@[simp] theorem drain_out (k : SlotId) : (drain k s).out = { s.out with txStrobe := true } := rfl
@[simp] theorem drain_slots (k : SlotId) : (drain k s).slots = clearPending s.slots k := rfl
@[simp] theorem drain_timing (k : SlotId) : (drain k s).timing = stampDrain k s.now s.timing := rfl

/-! ### `markFinal` -/

/-- `markFinal` sets the end-of-sequence flag for the final type, and touches nothing else. -/
theorem markFinal_eq (t : BcastType) :
    markFinal t s =
      { s with timing := { s.timing with eosFlag := s.timing.eosFlag || decide (s.params.finalType = some t) } } := by
  unfold markFinal
  split <;> simp_all

@[simp] theorem markFinal_params (t : BcastType) : (markFinal t s).params = s.params := by rw [markFinal_eq]
@[simp] theorem markFinal_inputs (t : BcastType) : (markFinal t s).inputs = s.inputs := by rw [markFinal_eq]
@[simp] theorem markFinal_out (t : BcastType) : (markFinal t s).out = s.out := by rw [markFinal_eq]
@[simp] theorem markFinal_now (t : BcastType) : (markFinal t s).now = s.now := by rw [markFinal_eq]
@[simp] theorem markFinal_framer (t : BcastType) : (markFinal t s).framer = s.framer := by rw [markFinal_eq]
@[simp] theorem markFinal_tx (t : BcastType) : (markFinal t s).tx = s.tx := by rw [markFinal_eq]
@[simp] theorem markFinal_slots (t : BcastType) : (markFinal t s).slots = s.slots := by rw [markFinal_eq]
@[simp] theorem markFinal_respPending (t : BcastType) : (markFinal t s).respPending = s.respPending := by rw [markFinal_eq]
@[simp] theorem markFinal_latches (t : BcastType) : (markFinal t s).latches = s.latches := by rw [markFinal_eq]
@[simp] theorem markFinal_emu (t : BcastType) : (markFinal t s).emu = s.emu := by rw [markFinal_eq]
@[simp] theorem markFinal_regs (t : BcastType) : (markFinal t s).regs = s.regs := by rw [markFinal_eq]

/-! ### Reset -/

/-- A reset keeps the parameters and the events still to come; the rest is `State.resetWith` (R160). -/
theorem resetEvent_eq : resetEvent s = { State.resetWith s.params with inputs := s.inputs } := rfl
@[simp] theorem resetEvent_params : (resetEvent s).params = s.params := rfl
@[simp] theorem resetEvent_inputs : (resetEvent s).inputs = s.inputs := rfl

end Sys2Proof.Machine
end

