-- ==== Sys2Proof/Laws/Zones.lean ====
section
/-! SUPPORT. The laws of the per-zone arrays and of zone numbers (R13, R84). -/

namespace Sys2Proof

@[simp] theorem Zones.get_const {α : Type} (x : α) (z : Zone) : (Zones.const x).get z = x := by cases z <;> rfl

@[simp] theorem Zones.get_set_self {α : Type} (v : Zones α) (z : Zone) (x : α) : (v.set z x).get z = x := by
  cases z <;> rfl

theorem Zones.get_set_ne {α : Type} (v : Zones α) {z z' : Zone} (x : α) (h : z' ≠ z) :
    (v.set z x).get z' = v.get z' := by
  cases z <;> cases z' <;> first | rfl | exact absurd rfl h

theorem Zones.get_set {α : Type} (v : Zones α) (z z' : Zone) (x : α) :
    (v.set z x).get z' = if z' = z then x else v.get z' := by
  by_cases h : z' = z
  · simp [h]
  · simp [h, Zones.get_set_ne v x h]

@[simp] theorem Zones.set_get {α : Type} (v : Zones α) (z : Zone) : v.set z (v.get z) = v := by cases z <;> rfl

/-- Two arrays with the same elements are equal. -/
theorem Zones.ext_get {α : Type} {v w : Zones α} (h : ∀ z, v.get z = w.get z) : v = w := by
  have h1 := h .z1; have h2 := h .z2; have h3 := h .z3; have h4 := h .z4
  have h5 := h .z5; have h6 := h .z6; have h7 := h .z7; have h8 := h .z8
  cases v; cases w
  simp_all [Zones.get]

theorem Zone.number_pos (z : Zone) : 1 ≤ z.number := by cases z <;> decide

theorem Zone.number_le (z : Zone) : z.number ≤ 8 := by cases z <;> decide

theorem Zone.number_inj {z z' : Zone} (h : z.number = z'.number) : z = z' := by
  cases z <;> cases z' <;> first | rfl | cases h

@[simp] theorem Zone.ofNat?_number (z : Zone) : Zone.ofNat? z.number = some z := by cases z <;> rfl

/-- A number is a zone's exactly when `ofNat?` gives that zone. -/
theorem Zone.ofNat?_eq_some {n : Nat} {z : Zone} : Zone.ofNat? n = some z ↔ n = z.number := by
  constructor
  · intro h
    unfold Zone.ofNat? at h
    split at h <;> simp_all [Zone.number] <;> subst h <;> rfl
  · rintro rfl
    exact Zone.ofNat?_number z

theorem Zone.ofNat?_eq_none {n : Nat} : Zone.ofNat? n = none ↔ n < 1 ∨ 8 < n := by
  constructor
  · intro h
    by_contra hn
    have h1 : 1 ≤ n := by omega
    have h2 : n ≤ 8 := by omega
    interval_cases n <;> cases h
  · intro h
    cases hz : Zone.ofNat? n with
    | none => rfl
    | some z =>
      have hn := Zone.ofNat?_eq_some.mp hz
      have h1 := z.number_pos
      have h2 := z.number_le
      omega

/-- A number 1 to 8 is some zone's. -/
theorem Zone.exists_of_range {n : Nat} (h1 : 1 ≤ n) (h8 : n ≤ 8) : ∃ z : Zone, z.number = n := by
  cases hz : Zone.ofNat? n with
  | none => have := Zone.ofNat?_eq_none.mp hz; omega
  | some z => exact ⟨z, (Zone.ofNat?_eq_some.mp hz).symm⟩

@[simp] theorem Zone.toNat_number8 (z : Zone) : (BitVec.ofNat 8 z.number).toNat = z.number := by cases z <;> rfl

@[simp] theorem Zone.toNat_number4 (z : Zone) : (BitVec.ofNat 4 z.number).toNat = z.number := by cases z <;> rfl

theorem Zone.mem_all (z : Zone) : z ∈ Zone.all := by cases z <;> decide

end Sys2Proof
end

