-- ==== Sys2Proof/Laws/Ops.lean ====
section
/-! SUPPORT. One lemma for each shared operation that says all it can do: the sequencing of results, the checks of the host
intents (R119), the reading of the frame buffer (R65), the checks of a zone frame (R81), the framer and the tick (R61, R63, R105). -/

namespace Sys2Proof.Machine

/-! ### Sequencing and the checks of the host operations -/

@[simp] theorem andThen_next (s : State) (k : State → Result) : andThen (.next s) k = k s := rfl

/-- A sequence goes on exactly when both parts do. -/
theorem andThen_eq_next {o : Result} {k : State → Result} {t : State} :
    andThen o k = .next t ↔ ∃ s, o = .next s ∧ k s = .next t := by
  cases o <;> simp [andThen]

theorem gated_live {s : State} (h : receivingData s = true) (k : State → Result) : gated s k = k s := by
  simp [gated, h]

theorem gated_stale {s : State} (h : receivingData s = false) (k : State → Result) :
    gated s k = .next (raiseEvent .intentStale s) := by
  simp [gated, h]

/-- What the gate can do (R119, check 1). -/
theorem gated_cases {s t : State} {k : State → Result} (h : gated s k = .next t) :
    receivingData s = true ∧ k s = .next t ∨ receivingData s = false ∧ t = raiseEvent .intentStale s := by
  cases hr : receivingData s
  · rw [gated_stale hr] at h; cases h; exact .inr ⟨rfl, rfl⟩
  · rw [gated_live hr] at h; exact .inl ⟨rfl, h⟩

@[simp] theorem withZone_number (z : Zone) (s : State) (k : Zone → State → Result) :
    withZone (BitVec.ofNat 8 z.number) s k = k z s := by
  rw [withZone, Zone.toNat_number8, Zone.ofNat?_number]

theorem withZone_outside {zone : Byte} (h : zone.toNat < 1 ∨ 8 < zone.toNat) (s : State) (k : Zone → State → Result) :
    withZone zone s k = .next (raiseEvent .intentZoneRange s) := by
  simp [withZone, Zone.ofNat?_eq_none.mpr h]

/-- What the zone check can do (R119, check 2). -/
theorem withZone_cases {zone : Byte} {s t : State} {k : Zone → State → Result} (h : withZone zone s k = .next t) :
    (∃ z : Zone, zone.toNat = z.number ∧ k z s = .next t) ∨
      (zone.toNat < 1 ∨ 8 < zone.toNat) ∧ t = raiseEvent .intentZoneRange s := by
  unfold withZone at h
  split at h
  · exact .inl ⟨_, Zone.ofNat?_eq_some.mp ‹_›, h⟩
  · cases h; exact .inr ⟨Zone.ofNat?_eq_none.mp ‹_›, rfl⟩

/-- What the domain check can do (R119, check 3). -/
theorem withDomain_cases {ok : Bool} {s t : State} {k : State → Result} (h : withDomain ok s k = .next t) :
    ok = true ∧ k s = .next t ∨ ok = false ∧ t = raiseEvent .badArgument s := by
  cases ok
  · cases h; exact .inr ⟨rfl, rfl⟩
  · exact .inl ⟨rfl, h⟩

/-- What the context check can do (R119, check 4). -/
theorem withContext_cases {α : Type} {v : Option α} {s t : State} {k : α → State → Result}
    (h : withContext v s k = .next t) :
    (∃ x, v = some x ∧ k x s = .next t) ∨ v = none ∧ t = raiseEvent .intentNoContext s := by
  cases v
  · cases h; exact .inr ⟨rfl, rfl⟩
  · exact .inl ⟨_, rfl, h⟩

/-! ### The frame buffer -/

theorem memReadFrom_eq (s : State) (a n : Nat) (h : a + n ≤ s.params.frameCap) :
    memReadFrom s a n = some ((List.range n).map (fun i => memoryRead s.framer.buf (a + i))) := by
  induction n generalizing a with
  | zero => rfl
  | succ n ih =>
    have ha : a < s.params.frameCap := by omega
    rw [memReadFrom, ih (a + 1) (by omega)]
    simp only [memRead, ha, if_true, List.range_succ_eq_map, List.map_cons, List.map_map, Nat.add_zero]
    congr 2
    apply List.map_congr_left
    intro i _
    simp only [Function.comp, Nat.succ_eq_add_one]
    congr 1
    omega

/-- A fill level within the capacity is read without a fault (R35, R65). -/
theorem frameBytes_eq {s : State} (h : s.framer.len ≤ s.params.frameCap) :
    frameBytes s = some ((List.range s.framer.len).map (memoryRead s.framer.buf)) := by
  rw [frameBytes, memReadFrom_eq s 0 _ (by omega)]
  simp

/-! ### Received frames -/

/-- What the checks of a zone frame can do (R81, R84, R85). -/
theorem checkZoneFrame_cases (zone : BitVec 4) (ok : Bool) (effect : Zone → State → State) (s : State) :
    (zone.toNat < 1 ∨ 8 < zone.toNat) ∧ checkZoneFrame zone ok effect s = raiseEvent .rxZoneRange s ∨
    ∃ z : Zone, zone.toNat = z.number ∧
      (ok = true ∧ checkZoneFrame zone ok effect s = effect z (countFrame s) ∨
        ok = false ∧ csumReject s = true ∧ checkZoneFrame zone ok effect s = raiseEvent .checksumMismatch s ∨
        ok = false ∧ csumReject s = false ∧
          checkZoneFrame zone ok effect s = effect z (countFrame (raiseEvent .checksumMismatch s))) := by
  unfold checkZoneFrame
  split
  · exact .inl ⟨Zone.ofNat?_eq_none.mp ‹_›, rfl⟩
  · refine .inr ⟨_, Zone.ofNat?_eq_some.mp ‹_›, ?_⟩
    cases ok <;> cases hc : csumReject s <;> simp

/-- Whatever a completed frame does, it leaves these parts of the state alone. -/
theorem processFrame_keeps (bytes : List Byte) (echo : Bool) (s : State) :
    (processFrame bytes echo s).params = s.params ∧ (processFrame bytes echo s).inputs = s.inputs ∧
      (processFrame bytes echo s).out = s.out ∧ (processFrame bytes echo s).now = s.now ∧
      (processFrame bytes echo s).framer = s.framer ∧ (processFrame bytes echo s).tx = s.tx ∧
      (processFrame bytes echo s).slots = s.slots ∧ (processFrame bytes echo s).emu = s.emu := by
  unfold processFrame
  split
  · simp
  · generalize decodeFrame s.params.bcastRules bytes = f
    have hz : ∀ (zone : BitVec 4) (ok : Bool) (effect : Zone → State → State) (u : State),
        (∀ z v, (effect z v).params = v.params ∧ (effect z v).inputs = v.inputs ∧ (effect z v).out = v.out ∧
          (effect z v).now = v.now ∧ (effect z v).framer = v.framer ∧ (effect z v).tx = v.tx ∧
          (effect z v).slots = v.slots ∧ (effect z v).emu = v.emu) →
        let w := checkZoneFrame zone ok effect u
        w.params = u.params ∧ w.inputs = u.inputs ∧ w.out = u.out ∧ w.now = u.now ∧ w.framer = u.framer ∧
          w.tx = u.tx ∧ w.slots = u.slots ∧ w.emu = u.emu := by
      intro zone ok effect u he
      rcases checkZoneFrame_cases zone ok effect u with ⟨-, h⟩ | ⟨z, -, ⟨-, h⟩ | ⟨-, -, h⟩ | ⟨-, -, h⟩⟩
      · simp [h]
      · simpa [h] using he z (countFrame u)
      · simp [h]
      · simpa [h] using he z (countFrame (raiseEvent .checksumMismatch u))
    have hd : ∀ (latch : State → State) (u : State), latchUnlessDebounced latch u = latch u ∨
        latchUnlessDebounced latch u = raiseEvent .debounceSuppressed u := by
      intro latch u
      unfold latchUnlessDebounced
      split
      · exact .inr rfl
      · exact .inl rfl
    cases f with
    | zoneWallController zone f csum => exact hz zone _ _ (refreshLiveness s) (fun z v => by simp)
    | zoneMasterController zone f csum => exact hz zone _ _ (refreshLiveness s) (fun z v => by simp)
    | stateMessage bytes =>
      rcases hd (latchSm bytes) (countFrame (refreshLiveness s)) with h | h <;> simp [applyFrame, applyStateMessage, h]
    | stateMessage2 bytes =>
      rcases hd (latchSm2 bytes) (countFrame (refreshLiveness s)) with h | h <;> simp [applyFrame, applyStateMessage2, h]
    | broadcast k bytes => simp [applyFrame, applyBroadcast]
    | unknown cause bytes => cases cause <;> simp [applyFrame, applyUnknown]
    | _ =>
      simp [applyFrame, applyMasterSetpoint, applyFanMode, applyOperatingMode, applyZoneState,
        applyCustomZoneSetpoint, acceptCommand]

/-! ### The framer -/

/-- What the framer's part of a byte or a tick can do (R61, R65): nothing, or the completion of the buffered frame. -/
theorem closeIfSilent_cases {s t : State} (hl : s.framer.len ≤ s.params.frameCap) (h : closeIfSilent s = .next t) :
    (¬(0 < s.framer.len ∧ silent s = true) ∧ t = s) ∨
      (0 < s.framer.len ∧ silent s = true) ∧
        t = processFrame ((List.range s.framer.len).map (memoryRead s.framer.buf)) s.framer.echoAcc
          { s with framer := { s.framer with len := 0, echoAcc := false } } := by
  unfold closeIfSilent completeFrame at h
  rw [frameBytes_eq hl] at h
  by_cases hc : 0 < s.framer.len ∧ silent s = true
  · simp only [hc.1, hc.2, decide_true, Bool.and_self, if_true] at h
    cases h
    exact .inr ⟨hc, rfl⟩
  · have hb : ¬((decide (0 < s.framer.len) && silent s) = true) := by simpa using hc
    rw [if_neg hb] at h
    cases h
    exact .inl ⟨hc, rfl⟩

/-- A fill level within the capacity never faults (R35). -/
theorem closeIfSilent_runs {s : State} (hl : s.framer.len ≤ s.params.frameCap) : ∃ t, closeIfSilent s = .next t := by
  unfold closeIfSilent completeFrame
  rw [frameBytes_eq hl]
  split <;> exact ⟨_, rfl⟩

/-- What the store of a byte can do (R63, R66): the byte joins the frame, or it overflows the buffer. -/
theorem storeByte_cases {b : Byte} {s t : State} (hl : s.framer.len ≤ s.params.frameCap) (h : storeByte b s = .next t) :
    (s.framer.len = s.params.frameCap ∧
      t = raiseEvent .frameTooLong { s with framer := { s.framer with len := 0, echoAcc := false } }) ∨
    (s.framer.len < s.params.frameCap ∧
      t = { s with framer :=
        { buf := memoryWrite s.framer.buf s.framer.len b
          len := s.framer.len + 1
          tLast := s.now
          echoAcc := if s.framer.len = 0 then isEchoByte s else s.framer.echoAcc || isEchoByte s } }) := by
  unfold storeByte at h
  by_cases he : s.framer.len = s.params.frameCap
  · rw [if_pos he] at h; cases h; exact .inl ⟨he, rfl⟩
  · have hlt : s.framer.len < s.params.frameCap := by omega
    rw [if_neg he] at h
    simp only [memWrite, hlt, if_true] at h
    cases h
    exact .inr ⟨hlt, rfl⟩

/-! ### The value an intent builds on -/

/-- The known value is the pending one, or else the decoded one (R122). -/
theorem base_eq_some {α : Type} {slot : Slot α} {field : Option α} {m : α} :
    base slot field = some m ↔ slot.pending = true ∧ slot.value = m ∨ slot.pending = false ∧ field = some m := by
  unfold base
  cases slot.pending <;> simp

/-- No value is known when none is pending and the field is absent (R122). -/
theorem base_eq_none {α : Type} {slot : Slot α} {field : Option α} :
    base slot field = none ↔ slot.pending = false ∧ field = none := by
  unfold base
  cases slot.pending <;> simp

/-! ### What a tick sends -/

/-- The bytes the UART takes are the frame handed over (R116), from a canonical transmit buffer. -/
theorem txBytes_txStart {s : State} (hw : memoryWf s.tx.txBuf = true) (bytes : List Byte) :
    txBytes (txStart bytes s) = bytes := by
  apply List.ext_getElem
  · simp [txBytes]
  · intro i _ h
    have := memoryRead_writeAll hw 0 bytes h
    simpa [txBytes, h] using this

/-- What steps 2 to 5 of a tick can do (R105): nothing, one response, or one drain. -/
theorem tickSend_cases (s : State) :
    tickSend s = s ∨
    (s.tx.txBusy = false ∧ s.framer.len = 0 ∧ ∃ z, firstOwed s = some z ∧ tickSend s = sendResponse z s) ∨
    (s.tx.txBusy = false ∧ s.framer.len = 0 ∧ firstOwed s = none ∧ mayDrain s = true ∧
      ∃ k, highestPending s = some k ∧ tickSend s = drain k s) := by
  unfold tickSend tickDrain
  split
  · exact .inl rfl
  · rename_i hb
    split
    · exact .inl rfl
    · rename_i hl
      split
      · rename_i z hz
        exact .inr (.inl ⟨by simpa using hb, by omega, z, hz, rfl⟩)
      · rename_i hz
        split
        · rename_i hd
          split
          · rename_i k hk
            exact .inr (.inr ⟨by simpa using hb, by omega, hz, hd, k, hk, rfl⟩)
          · exact .inl rfl
        · exact .inl rfl

/-- When a drain is allowed (R105, step 5). -/
theorem mayDrain_iff {s : State} : mayDrain s = true ↔
    (quiet s = true ∨ s.timing.eosFlag = true) ∧ spacingOk s = true ∧ s.timing.windowUsed = false := by
  simp [mayDrain, and_assoc]

/-- The order of the slots, written out (R113). -/
theorem slotOrder_eq : slotOrder = [.opMode, .zoneState, .fanMode, .masterSp, .customSp, .mtz .z1, .mtz .z2, .mtz .z3,
    .mtz .z4, .mtz .z5, .mtz .z6, .mtz .z7, .mtz .z8] := rfl

theorem SlotId.mem_order (k : SlotId) : k ∈ slotOrder := by
  cases k with
  | mtz z => cases z <;> decide
  | _ => decide

theorem highestPending_eq_none {s : State} : highestPending s = none ↔ ∀ k, slotPending s k = false := by
  simp only [highestPending, List.find?_eq_none, Bool.not_eq_true]
  exact ⟨fun h k => h k k.mem_order, fun h k _ => h k⟩

theorem firstOwed_eq_none {s : State} : firstOwed s = none ↔ ∀ z, s.respPending.get z = false := by
  simp only [firstOwed, List.find?_eq_none, Bool.not_eq_true]
  exact ⟨fun h z => h z z.mem_all, fun h z _ => h z⟩

theorem firstOwed_owed {s : State} {z : Zone} (h : firstOwed s = some z) : s.respPending.get z = true :=
  List.find?_some h

theorem highestPending_pending {s : State} {k : SlotId} (h : highestPending s = some k) : slotPending s k = true :=
  List.find?_some h

/-- Which flags a drain clears: the drained slot's (R114). -/
theorem slotPending_clearPending (s : State) (k j : SlotId) :
    slotPending { s with slots := clearPending s.slots k } j = (slotPending s j && decide (j ≠ k)) := by
  cases k with
  | mtz z =>
    cases j with
    | mtz z' =>
      by_cases h : z' = z
      · subst h; simp [slotPending, clearPending, dequeue]
      · simp [slotPending, clearPending, Zones.get_set_ne _ _ h, h]
    | _ => simp [slotPending, clearPending]
  | _ => cases j <;> simp [slotPending, clearPending, dequeue]

end Sys2Proof.Machine
end

