-- ==== Sys2Proof/Laws/Dispatch.lean ====
section
/-! SUPPORT. The two ways to a meaning are one: a completed peer frame has the effect of its instruction; and the step, event by
event. -/

namespace Sys2Proof.Machine

/-! ### Each arm of the dispatch -/

theorem exec_masterSetpoint (sp : Byte) (s : State) :
    exec (.masterSetpoint sp) s = execMasterSetpoint sp s := rfl

theorem exec_fanMode (v : Byte) (s : State) :
    exec (.fanMode v) s = execFanMode v s := rfl

theorem exec_operatingMode (mode : Byte) (s : State) :
    exec (.operatingMode mode) s = execOperatingMode mode s := rfl

theorem exec_zoneState (bitmap : Byte) (s : State) :
    exec (.zoneState bitmap) s = execZoneState bitmap s := rfl

theorem exec_customZoneSetpoint (zone sp : Byte) (s : State) :
    exec (.customZoneSetpoint zone sp) s = execCustomZoneSetpoint zone sp s := rfl

theorem exec_stateMessage (bytes : List Byte) (s : State) :
    exec (.stateMessage bytes) s = execStateMessage bytes s := rfl

theorem exec_stateMessage2 (bytes : List Byte) (s : State) :
    exec (.stateMessage2 bytes) s = execStateMessage2 bytes s := rfl

theorem exec_broadcast (k : Nat) (bytes : List Byte) (s : State) :
    exec (.broadcast k bytes) s = execBroadcast k bytes s := rfl

theorem exec_zoneWallController (zone : BitVec 4) (f : WallBits) (csum : Byte) (s : State) :
    exec (.zoneWallController zone f csum) s = execZoneWallController zone f csum s := rfl

theorem exec_zoneMasterController (zone : BitVec 4) (f : MtzBits) (csum : Byte) (s : State) :
    exec (.zoneMasterController zone f csum) s = execZoneMasterController zone f csum s := rfl

theorem exec_unknown (cause : DropCause) (bytes : List Byte) (s : State) :
    exec (.unknown cause bytes) s = execUnknown cause bytes s := rfl

theorem exec_setSystemOn (on : Bool) (s : State) :
    exec (.setSystemOn on) s = execSetSystemOn on s := rfl

theorem exec_setOperatingMode (mode : Byte) (s : State) :
    exec (.setOperatingMode mode) s = execSetOperatingMode mode s := rfl

theorem exec_setFanSpeed (speed : Byte) (s : State) :
    exec (.setFanSpeed speed) s = execSetFanSpeed speed s := rfl

theorem exec_setFanSpeedAbsolute (speed cont : Byte) (s : State) :
    exec (.setFanSpeedAbsolute speed cont) s = execSetFanSpeedAbsolute speed cont s := rfl

theorem exec_setContinuousFanMode (cont : Byte) (s : State) :
    exec (.setContinuousFanMode cont) s = execSetContinuousFanMode cont s := rfl

theorem exec_setMasterSetpoint (d : Half) (s : State) :
    exec (.setMasterSetpoint d) s = execSetMasterSetpoint d s := rfl

theorem exec_setZoneOn (zone : Byte) (on : Bool) (s : State) :
    exec (.setZoneOn zone on) s = execSetZoneOn zone on s := rfl

theorem exec_setZoneSetpointTemperature (zone : Byte) (d : Half) (adjustMaster : Bool) (s : State) :
    exec (.setZoneSetpointTemperature zone d adjustMaster) s = execSetZoneSetpointTemperature zone d adjustMaster s := rfl

theorem exec_setZoneCurrentTemperature (zone : Byte) (d : Half) (s : State) :
    exec (.setZoneCurrentTemperature zone d) s = execSetZoneCurrentTemperature zone d s := rfl

theorem exec_setControlZone (zone : Byte) (en : Bool) (s : State) :
    exec (.setControlZone zone en) s = execSetControlZone zone en s := rfl

theorem exec_sendZoneMasterOverride (zone : Byte) (f : MtzBits) (s : State) :
    exec (.sendZoneMasterOverride zone f) s = execSendZoneMasterOverride zone f s := rfl

theorem exec_clearStatus (mask : Half) (s : State) :
    exec (.clearStatus mask) s = execClearStatus mask s := rfl

theorem exec_writeConfig (v : Byte) (s : State) :
    exec (.writeConfig v) s = execWriteConfig v s := rfl

theorem exec_processMessage (n : BitVec 9) (bytes : List Byte) (s : State) :
    exec (.processMessage n bytes) s = execProcessMessage n bytes s := rfl

theorem exec_readReg (n : Byte) (s : State) :
    exec (.readReg n) s = execReadReg n s := rfl

theorem exec_getOperatingMode (s : State) : exec .getOperatingMode s = execGetOperatingMode s := rfl

theorem exec_getFanMode (s : State) : exec .getFanMode s = execGetFanMode s := rfl

theorem exec_getMaster (s : State) : exec .getMaster s = execGetMaster s := rfl

theorem exec_getZone (zone : Byte) (s : State) :
    exec (.getZone zone) s = execGetZone zone s := rfl

theorem exec_getCompressor (s : State) : exec .getCompressor s = execGetCompressor s := rfl

theorem exec_receivingData (s : State) : exec .receivingData s = execReceivingData s := rfl

theorem exec_pendingCount (s : State) : exec .pendingCount s = execPendingCount s := rfl

theorem exec_unassignedSelector (sel : Byte) (args : List Byte) (s : State) :
    exec (.unassignedSelector sel args) s = execUnassignedSelector sel args s := rfl

/-! ### Frames and steps -/

/-- A frame's effect is the meaning of its instruction (R81). -/
theorem exec_frame (f : Frame) (s : State) : exec f.toInstr s = .next (applyFrame f s) := by
  cases f <;> rfl

/-- A completed peer frame runs the instruction it decodes to (R81). -/
theorem processFrame_peer (bytes : List Byte) (s : State) :
    exec (decodeFrame s.params.bcastRules bytes).toInstr s = .next (processFrame bytes false s) :=
  exec_frame _ s

theorem step_idle {s : State} (h : s.inputs = []) : step s = .next s := by simp [step, nextEvent, h]

/-- A step applies the next event to the state that presents it (R39). -/
theorem step_event {s : State} {e : Event} {rest : List Event} (h : s.inputs = e :: rest) :
    step s = applyEvent e { s with inputs := rest, out := ⟨false, .none⟩ } := by
  simp [step, nextEvent, h, clearOutputs]

/-- What a step can be: waiting, or the application of the next event. -/
theorem step_cases {s t : State} (h : step s = .next t) :
    (s.inputs = [] ∧ t = s) ∨
      ∃ e rest, s.inputs = e :: rest ∧ applyEvent e { s with inputs := rest, out := ⟨false, .none⟩ } = .next t := by
  cases hi : s.inputs with
  | nil => rw [step_idle hi] at h; cases h; exact .inl ⟨rfl, rfl⟩
  | cons e rest => rw [step_event hi] at h; exact .inr ⟨e, rest, rfl, h⟩

/-- A tick that goes on: the framer's part, then what the tick sends (R105). -/
theorem tick_cases {time : Word} {s t : State} (h : tick time s = .next t) :
    ∃ mid, closeIfSilent { s with now := time } = .next mid ∧ t = tickSend mid := by
  obtain ⟨mid, hm, ht⟩ := andThen_eq_next.mp h
  cases ht
  exact ⟨mid, hm, rfl⟩

/-- A received byte that goes on: the framer's part, then the byte is noted and stored (R63). -/
theorem rxByte_cases {time : Word} {b : Byte} {s t : State} (h : rxByte time b s = .next t) :
    ∃ mid, closeIfSilent { s with now := time } = .next mid ∧ storeByte b (noteByte mid) = .next t :=
  andThen_eq_next.mp h

end Sys2Proof.Machine
end

