-- ==== Sys2Proof/Laws/Exec.lean ====
section
/-! SUPPORT. What no instruction changes: the parameters, the events to come, the time base, the framer, the transmitter, the strobe and
all of the timing state but liveness and the end-of-sequence flag. The arbiter and the framer alone change those (R39). -/

namespace Sys2Proof.Machine

/-- `t` agrees with `s` on what no instruction changes. -/
structure ExecKeeps (s t : State) : Prop where
  params : t.params = s.params
  inputs : t.inputs = s.inputs
  now : t.now = s.now
  framer : t.framer = s.framer
  tx : t.tx = s.tx
  strobe : t.out.txStrobe = s.out.txStrobe
  timing :
    t.timing =
      { s.timing with frameSeen := t.timing.frameSeen, tFrame := t.timing.tFrame, eosFlag := t.timing.eosFlag }

theorem ExecKeeps.refl (s : State) : ExecKeeps s s := ⟨rfl, rfl, rfl, rfl, rfl, rfl, rfl⟩

theorem ExecKeeps.trans {s t u : State} (h : ExecKeeps s t) (k : ExecKeeps t u) : ExecKeeps s u where
  params := k.params.trans h.params
  inputs := k.inputs.trans h.inputs
  now := k.now.trans h.now
  framer := k.framer.trans h.framer
  tx := k.tx.trans h.tx
  strobe := k.strobe.trans h.strobe
  timing := by rw [k.timing, h.timing]

theorem ExecKeeps.raise (k : EventCode) (s : State) : ExecKeeps s (raiseEvent k s) := ⟨rfl, rfl, rfl, rfl, rfl, rfl, rfl⟩

theorem ExecKeeps.accept (s : State) : ExecKeeps s (countFrame (refreshLiveness s)) := ⟨rfl, rfl, rfl, rfl, rfl, rfl, rfl⟩

theorem ExecKeeps.final (t : BcastType) (s : State) : ExecKeeps s (markFinal t s) := by
  rw [markFinal_eq]; exact ⟨rfl, rfl, rfl, rfl, rfl, rfl, rfl⟩

/-- The checks of a zone frame keep what its effect keeps. -/
theorem ExecKeeps.zoneFrame (zone : BitVec 4) (ok : Bool) {effect : Zone → State → State} (s : State)
    (he : ∀ z u, ExecKeeps u (effect z u)) : ExecKeeps s (checkZoneFrame zone ok effect (refreshLiveness s)) := by
  have hl : ExecKeeps s (refreshLiveness s) := ⟨rfl, rfl, rfl, rfl, rfl, rfl, rfl⟩
  have hc : ∀ u, ExecKeeps u (countFrame u) := fun u => ⟨rfl, rfl, rfl, rfl, rfl, rfl, rfl⟩
  rcases checkZoneFrame_cases zone ok effect (refreshLiveness s) with ⟨-, h⟩ | ⟨z, -, ⟨-, h⟩ | ⟨-, -, h⟩ | ⟨-, -, h⟩⟩ <;>
    rw [h]
  · exact hl.trans (.raise _ _)
  · exact hl.trans ((hc _).trans (he _ _))
  · exact hl.trans (.raise _ _)
  · exact hl.trans ((ExecKeeps.raise _ _).trans ((hc _).trans (he _ _)))

/-- A received frame keeps what no instruction changes. -/
theorem applyFrame_keeps (f : Frame) (s : State) : ExecKeeps s (applyFrame f s) := by
  have hd : ∀ (latch : State → State) (u : State), (∀ u, ExecKeeps u (latch u)) →
      ExecKeeps u (latchUnlessDebounced latch u) := by
    intro latch u hl
    unfold latchUnlessDebounced
    split
    · exact .raise _ _
    · exact hl u
  cases f with
  | zoneWallController zone f csum => exact .zoneFrame _ _ _ fun z u => ⟨rfl, rfl, rfl, rfl, rfl, rfl, rfl⟩
  | zoneMasterController zone f csum => exact .zoneFrame _ _ _ fun z u => ⟨rfl, rfl, rfl, rfl, rfl, rfl, rfl⟩
  | stateMessage bytes =>
    exact (ExecKeeps.accept s).trans ((hd (latchSm bytes) _ fun u => ⟨rfl, rfl, rfl, rfl, rfl, rfl, rfl⟩).trans
      (.final _ _))
  | stateMessage2 bytes =>
    exact (ExecKeeps.accept s).trans ((hd (latchSm2 bytes) _ fun u => ⟨rfl, rfl, rfl, rfl, rfl, rfl, rfl⟩).trans
      (.final _ _))
  | broadcast k bytes => exact (ExecKeeps.accept s).trans (.final _ _)
  | unknown cause bytes => cases cause <;> exact ⟨rfl, rfl, rfl, rfl, rfl, rfl, rfl⟩
  | _ => exact ⟨rfl, rfl, rfl, rfl, rfl, rfl, rfl⟩

/-- A completed frame keeps what no instruction changes. -/
theorem processFrame_execKeeps (bytes : List Byte) (echo : Bool) (s : State) :
    ExecKeeps s (processFrame bytes echo s) := by
  unfold processFrame
  split
  · exact .raise _ _
  · exact applyFrame_keeps _ _

/-- What the framer's part of a byte or a tick keeps: all but the framer, liveness, the end-of-sequence flag, the latches, the responses
owed and the registers. -/
theorem closeIfSilent_keeps {s t : State} (h : closeIfSilent s = .next t) :
    t.params = s.params ∧ t.inputs = s.inputs ∧ t.out = s.out ∧ t.now = s.now ∧ t.tx = s.tx ∧ t.slots = s.slots ∧
      t.emu = s.emu ∧
      t.timing =
        { s.timing with frameSeen := t.timing.frameSeen, tFrame := t.timing.tFrame, eosFlag := t.timing.eosFlag } := by
  unfold closeIfSilent completeFrame at h
  split at h
  · split at h
    · cases h
    · rename_i bytes _
      cases h
      obtain ⟨h1, h2, h3, h4, -, h6, h7, h8⟩ := processFrame_keeps bytes s.framer.echoAcc
        { s with framer := { s.framer with len := 0, echoAcc := false } }
      exact ⟨h1, h2, h3, h4, h6, h7, h8, (processFrame_execKeeps bytes s.framer.echoAcc _).timing⟩
  · cases h
    exact ⟨rfl, rfl, rfl, rfl, rfl, rfl, rfl, rfl⟩

/-- The intents keep what no instruction changes. -/
theorem gated_keeps {s t : State} {k : State → Result} (h : gated s k = .next t)
    (hk : k s = .next t → ExecKeeps s t) : ExecKeeps s t := by
  rcases gated_cases h with ⟨-, h⟩ | ⟨-, rfl⟩
  · exact hk h
  · exact .raise _ _

theorem withZone_keeps {zone : Byte} {s t : State} {k : Zone → State → Result} (h : withZone zone s k = .next t)
    (hk : ∀ z, k z s = .next t → ExecKeeps s t) : ExecKeeps s t := by
  rcases withZone_cases h with ⟨z, -, h⟩ | ⟨-, rfl⟩
  · exact hk z h
  · exact .raise _ _

theorem withDomain_keeps {ok : Bool} {s t : State} {k : State → Result} (h : withDomain ok s k = .next t)
    (hk : k s = .next t → ExecKeeps s t) : ExecKeeps s t := by
  rcases withDomain_cases h with ⟨-, h⟩ | ⟨-, rfl⟩
  · exact hk h
  · exact .raise _ _

theorem withContext_keeps {α : Type} {v : Option α} {s t : State} {k : α → State → Result}
    (h : withContext v s k = .next t) (hk : ∀ x, k x s = .next t → ExecKeeps s t) : ExecKeeps s t := by
  rcases withContext_cases h with ⟨x, -, h⟩ | ⟨-, rfl⟩
  · exact hk x h
  · exact .raise _ _

/-- A result that is a next state keeps what that state keeps. -/
theorem next_keeps {s t u : State} (h : (.next u : Result) = .next t) (hu : ExecKeeps s u) : ExecKeeps s t := by
  cases h
  exact hu

/-- What no instruction changes. -/
theorem exec_keeps {i : Instr} {s t : State} (h : exec i s = .next t) : ExecKeeps s t := by
  cases i with
  | setSystemOn on =>
    rw [exec_setSystemOn] at h
    unfold execSetSystemOn at h
    exact gated_keeps h fun h => withContext_keeps h fun _ h => next_keeps h ⟨rfl, rfl, rfl, rfl, rfl, rfl, rfl⟩
  | setOperatingMode mode =>
    rw [exec_setOperatingMode] at h
    unfold execSetOperatingMode at h
    exact gated_keeps h fun h => withDomain_keeps h fun h => next_keeps h ⟨rfl, rfl, rfl, rfl, rfl, rfl, rfl⟩
  | setFanSpeed speed =>
    rw [exec_setFanSpeed] at h
    unfold execSetFanSpeed at h
    exact gated_keeps h fun h => withDomain_keeps h fun h => withContext_keeps h
      fun _ h => next_keeps h ⟨rfl, rfl, rfl, rfl, rfl, rfl, rfl⟩
  | setFanSpeedAbsolute speed cont =>
    rw [exec_setFanSpeedAbsolute] at h
    unfold execSetFanSpeedAbsolute at h
    exact gated_keeps h fun h => withDomain_keeps h fun h => next_keeps h ⟨rfl, rfl, rfl, rfl, rfl, rfl, rfl⟩
  | setContinuousFanMode cont =>
    rw [exec_setContinuousFanMode] at h
    unfold execSetContinuousFanMode at h
    exact gated_keeps h fun h => withDomain_keeps h fun h => withContext_keeps h
      fun _ h => next_keeps h ⟨rfl, rfl, rfl, rfl, rfl, rfl, rfl⟩
  | setMasterSetpoint d =>
    rw [exec_setMasterSetpoint] at h
    unfold execSetMasterSetpoint at h
    exact gated_keeps h fun h => next_keeps h ⟨rfl, rfl, rfl, rfl, rfl, rfl, rfl⟩
  | setZoneOn zone on =>
    rw [exec_setZoneOn] at h
    unfold execSetZoneOn at h
    exact gated_keeps h fun h => withZone_keeps h fun _ h => withContext_keeps h
      fun _ h => next_keeps h ⟨rfl, rfl, rfl, rfl, rfl, rfl, rfl⟩
  | setZoneSetpointTemperature zone d adjustMaster =>
    rw [exec_setZoneSetpointTemperature] at h
    unfold execSetZoneSetpointTemperature at h
    refine gated_keeps h fun h => withZone_keeps h fun z h => ?_
    dsimp only at h
    split at h
    · exact next_keeps h ⟨rfl, rfl, rfl, rfl, rfl, rfl, rfl⟩
    · exact withContext_keeps h fun _ h => next_keeps h ⟨rfl, rfl, rfl, rfl, rfl, rfl, rfl⟩
  | setZoneCurrentTemperature zone d =>
    rw [exec_setZoneCurrentTemperature] at h
    unfold execSetZoneCurrentTemperature at h
    exact withZone_keeps h fun _ h => next_keeps h ⟨rfl, rfl, rfl, rfl, rfl, rfl, rfl⟩
  | setControlZone zone en =>
    rw [exec_setControlZone] at h
    unfold execSetControlZone at h
    exact withZone_keeps h fun _ h => next_keeps h ⟨rfl, rfl, rfl, rfl, rfl, rfl, rfl⟩
  | sendZoneMasterOverride zone f =>
    rw [exec_sendZoneMasterOverride] at h
    unfold execSendZoneMasterOverride at h
    exact withZone_keeps h fun _ h => next_keeps h ⟨rfl, rfl, rfl, rfl, rfl, rfl, rfl⟩
  | processMessage n bytes =>
    rw [exec_processMessage] at h
    unfold execProcessMessage at h
    exact withDomain_keeps h fun h => next_keeps h (processFrame_execKeeps bytes false s)
  | readReg n =>
    rw [exec_readReg] at h
    unfold execReadReg at h
    split at h <;> exact next_keeps h ⟨rfl, rfl, rfl, rfl, rfl, rfl, rfl⟩
  | getZone zone =>
    rw [exec_getZone] at h
    unfold execGetZone at h
    split at h <;> exact next_keeps h ⟨rfl, rfl, rfl, rfl, rfl, rfl, rfl⟩
  | clearStatus mask =>
    rw [exec_clearStatus] at h
    unfold execClearStatus at h
    exact next_keeps h ⟨rfl, rfl, rfl, rfl, rfl, rfl, rfl⟩
  | writeConfig v =>
    rw [exec_writeConfig] at h
    unfold execWriteConfig at h
    exact next_keeps h ⟨rfl, rfl, rfl, rfl, rfl, rfl, rfl⟩
  | getOperatingMode =>
    rw [exec_getOperatingMode] at h
    unfold execGetOperatingMode at h
    exact next_keeps h ⟨rfl, rfl, rfl, rfl, rfl, rfl, rfl⟩
  | getFanMode =>
    rw [exec_getFanMode] at h
    unfold execGetFanMode at h
    exact next_keeps h ⟨rfl, rfl, rfl, rfl, rfl, rfl, rfl⟩
  | getMaster =>
    rw [exec_getMaster] at h
    unfold execGetMaster at h
    exact next_keeps h ⟨rfl, rfl, rfl, rfl, rfl, rfl, rfl⟩
  | getCompressor =>
    rw [exec_getCompressor] at h
    unfold execGetCompressor at h
    exact next_keeps h ⟨rfl, rfl, rfl, rfl, rfl, rfl, rfl⟩
  | receivingData =>
    rw [exec_receivingData] at h
    unfold execReceivingData at h
    exact next_keeps h ⟨rfl, rfl, rfl, rfl, rfl, rfl, rfl⟩
  | pendingCount =>
    rw [exec_pendingCount] at h
    unfold execPendingCount at h
    exact next_keeps h ⟨rfl, rfl, rfl, rfl, rfl, rfl, rfl⟩
  | unassignedSelector sel args =>
    rw [exec_unassignedSelector] at h
    unfold execUnassignedSelector at h
    exact next_keeps h ⟨rfl, rfl, rfl, rfl, rfl, rfl, rfl⟩
  | masterSetpoint sp => exact next_keeps h (applyFrame_keeps (.masterSetpoint sp) s)
  | fanMode v => exact next_keeps h (applyFrame_keeps (.fanMode v) s)
  | operatingMode mode => exact next_keeps h (applyFrame_keeps (.operatingMode mode) s)
  | zoneState bitmap => exact next_keeps h (applyFrame_keeps (.zoneState bitmap) s)
  | customZoneSetpoint zone sp => exact next_keeps h (applyFrame_keeps (.customZoneSetpoint zone sp) s)
  | stateMessage bytes => exact next_keeps h (applyFrame_keeps (.stateMessage bytes) s)
  | stateMessage2 bytes => exact next_keeps h (applyFrame_keeps (.stateMessage2 bytes) s)
  | broadcast k bytes => exact next_keeps h (applyFrame_keeps (.broadcast k bytes) s)
  | zoneWallController zone f csum => exact next_keeps h (applyFrame_keeps (.zoneWallController zone f csum) s)
  | zoneMasterController zone f csum => exact next_keeps h (applyFrame_keeps (.zoneMasterController zone f csum) s)
  | unknown cause bytes => exact next_keeps h (applyFrame_keeps (.unknown cause bytes) s)

end Sys2Proof.Machine
end

