-- ==== Sys2Proof/Laws/PerInstr.lean ====
section
/-! SUPPORT. The per-instruction family SelectorByte: the first byte of an instruction's encoding is the one its row of
spec/opcode_table.json selects by (R45, R46, R59). -/

namespace Sys2Proof.Laws.SelectorByte

/-- What the row of an instruction says of the first byte: a fixed value, a fixed high nibble, a broadcast rule of the row's type, or,
for the two rows without a pattern, anything. -/
def Selects (rules : List BcastRule) (b : Byte) : Instr → Prop
  | .masterSetpoint _ => b = 0x3A#8
  | .fanMode _ => b = 0x3B#8
  | .operatingMode _ => b = 0x3C#8
  | .zoneState _ => b = 0x3D#8
  | .customZoneSetpoint _ _ => b = 0x3F#8
  | .stateMessage _ => ∃ r ∈ rules, r.type = .stateMessage ∧ r.hits b = true
  | .stateMessage2 _ => ∃ r ∈ rules, r.type = .stateMessage2 ∧ r.hits b = true
  | .broadcast k _ => ∃ r ∈ rules, r.type = .broadcast k ∧ r.hits b = true
  | .zoneWallController _ _ _ => b &&& 0xF0#8 = 0xC0#8
  | .zoneMasterController _ _ _ => b &&& 0xF0#8 = 0x80#8
  | .unknown _ _ => True
  | .setSystemOn _ => b = 0x01#8
  | .setOperatingMode _ => b = 0x02#8
  | .setFanSpeed _ => b = 0x03#8
  | .setFanSpeedAbsolute _ _ => b = 0x04#8
  | .setContinuousFanMode _ => b = 0x05#8
  | .setMasterSetpoint _ => b = 0x06#8
  | .setZoneOn _ _ => b = 0x07#8
  | .setZoneSetpointTemperature _ _ _ => b = 0x08#8
  | .setZoneCurrentTemperature _ _ => b = 0x09#8
  | .setControlZone _ _ => b = 0x0A#8
  | .sendZoneMasterOverride _ _ => b = 0x0B#8
  | .clearStatus _ => b = 0x0C#8
  | .writeConfig _ => b = 0x0D#8
  | .processMessage _ _ => b = 0x0E#8
  | .readReg _ => b = 0x10#8
  | .getOperatingMode => b = 0x11#8
  | .getFanMode => b = 0x12#8
  | .getMaster => b = 0x13#8
  | .getZone _ => b = 0x14#8
  | .getCompressor => b = 0x15#8
  | .receivingData => b = 0x16#8
  | .pendingCount => b = 0x17#8
  | .unassignedSelector _ _ => True

/-- A well-formed instruction's encoding begins with a byte its row selects. -/
def Statement (i : Instr) : Prop :=
  ∀ (rules : List BcastRule) (cap : Nat), WellFormed rules cap i = true →
    ∃ b rest, encode i = b :: rest ∧ Selects rules b i

/-- The first byte of a broadcast is taken by a rule of its type. -/
theorem bcast_selects {rules : List BcastRule} {t : BcastType} {bytes : List Byte} (h : isBcast rules t bytes = true) :
    ∃ b rest, bytes = b :: rest ∧ ∃ r ∈ rules, r.type = t ∧ r.hits b = true := by
  unfold isBcast at h
  split at h
  · cases h
  · rename_i b rest
    split at h
    · cases h
    · rename_i r hr
      refine ⟨b, rest, rfl, r, ?_⟩
      unfold bcastRuleOf at hr
      split at hr
      · cases hr
      · simp only [Bool.and_eq_true, beq_iff_eq] at h
        exact ⟨List.mem_of_find?_eq_some hr, h.1, by simpa using List.find?_some hr⟩

theorem masterSetpoint (a : Byte) : Statement (.masterSetpoint a) :=
  fun _ _ _ => ⟨_, _, rfl, rfl⟩

theorem fanMode (a : Byte) : Statement (.fanMode a) :=
  fun _ _ _ => ⟨_, _, rfl, rfl⟩

theorem operatingMode (a : Byte) : Statement (.operatingMode a) :=
  fun _ _ _ => ⟨_, _, rfl, rfl⟩

theorem zoneState (a : Byte) : Statement (.zoneState a) :=
  fun _ _ _ => ⟨_, _, rfl, rfl⟩

theorem customZoneSetpoint (a : Byte) (b : Byte) : Statement (.customZoneSetpoint a b) :=
  fun _ _ _ => ⟨_, _, rfl, rfl⟩

theorem stateMessage (a : List Byte) : Statement (.stateMessage a) :=
  fun _ _ h => bcast_selects h

theorem stateMessage2 (a : List Byte) : Statement (.stateMessage2 a) :=
  fun _ _ h => bcast_selects h

theorem broadcast (a : Nat) (b : List Byte) : Statement (.broadcast a b) :=
  fun _ _ h => bcast_selects h

theorem zoneWallController (a : BitVec 4) (b : WallBits) (c : Byte) : Statement (.zoneWallController a b c) := by
  refine fun _ _ _ => ⟨_, _, rfl, ?_⟩
  show (0xC#4 ++ a) &&& 0xF0#8 = _
  clear * -
  revert a
  decide

theorem zoneMasterController (a : BitVec 4) (b : MtzBits) (c : Byte) : Statement (.zoneMasterController a b c) := by
  refine fun _ _ _ => ⟨_, _, rfl, ?_⟩
  show (0x8#4 ++ a) &&& 0xF0#8 = _
  clear * -
  revert a
  decide

theorem unknown (a : DropCause) (b : List Byte) : Statement (.unknown a b) := by
  intro rules cap h
  cases b with
  | nil => cases h
  | cons b rest => exact ⟨b, rest, rfl, trivial⟩

theorem setSystemOn (a : Bool) : Statement (.setSystemOn a) :=
  fun _ _ _ => ⟨_, _, rfl, rfl⟩

theorem setOperatingMode (a : Byte) : Statement (.setOperatingMode a) :=
  fun _ _ _ => ⟨_, _, rfl, rfl⟩

theorem setFanSpeed (a : Byte) : Statement (.setFanSpeed a) :=
  fun _ _ _ => ⟨_, _, rfl, rfl⟩

theorem setFanSpeedAbsolute (a : Byte) (b : Byte) : Statement (.setFanSpeedAbsolute a b) :=
  fun _ _ _ => ⟨_, _, rfl, rfl⟩

theorem setContinuousFanMode (a : Byte) : Statement (.setContinuousFanMode a) :=
  fun _ _ _ => ⟨_, _, rfl, rfl⟩

theorem setMasterSetpoint (a : Half) : Statement (.setMasterSetpoint a) :=
  fun _ _ _ => ⟨_, _, rfl, rfl⟩

theorem setZoneOn (a : Byte) (b : Bool) : Statement (.setZoneOn a b) :=
  fun _ _ _ => ⟨_, _, rfl, rfl⟩

theorem setZoneSetpointTemperature (a : Byte) (b : Half) (c : Bool) : Statement (.setZoneSetpointTemperature a b c) :=
  fun _ _ _ => ⟨_, _, rfl, rfl⟩

theorem setZoneCurrentTemperature (a : Byte) (b : Half) : Statement (.setZoneCurrentTemperature a b) :=
  fun _ _ _ => ⟨_, _, rfl, rfl⟩

theorem setControlZone (a : Byte) (b : Bool) : Statement (.setControlZone a b) :=
  fun _ _ _ => ⟨_, _, rfl, rfl⟩

theorem sendZoneMasterOverride (a : Byte) (b : MtzBits) : Statement (.sendZoneMasterOverride a b) :=
  fun _ _ _ => ⟨_, _, rfl, rfl⟩

theorem clearStatus (a : Half) : Statement (.clearStatus a) :=
  fun _ _ _ => ⟨_, _, rfl, rfl⟩

theorem writeConfig (a : Byte) : Statement (.writeConfig a) :=
  fun _ _ _ => ⟨_, _, rfl, rfl⟩

theorem processMessage (a : BitVec 9) (b : List Byte) : Statement (.processMessage a b) :=
  fun _ _ _ => ⟨_, _, rfl, rfl⟩

theorem readReg (a : Byte) : Statement (.readReg a) :=
  fun _ _ _ => ⟨_, _, rfl, rfl⟩

theorem getOperatingMode : Statement .getOperatingMode :=
  fun _ _ _ => ⟨_, _, rfl, rfl⟩

theorem getFanMode : Statement .getFanMode :=
  fun _ _ _ => ⟨_, _, rfl, rfl⟩

theorem getMaster : Statement .getMaster :=
  fun _ _ _ => ⟨_, _, rfl, rfl⟩

theorem getZone (a : Byte) : Statement (.getZone a) :=
  fun _ _ _ => ⟨_, _, rfl, rfl⟩

theorem getCompressor : Statement .getCompressor :=
  fun _ _ _ => ⟨_, _, rfl, rfl⟩

theorem receivingData : Statement .receivingData :=
  fun _ _ _ => ⟨_, _, rfl, rfl⟩

theorem pendingCount : Statement .pendingCount :=
  fun _ _ _ => ⟨_, _, rfl, rfl⟩

theorem unassignedSelector (a : Byte) (b : List Byte) : Statement (.unassignedSelector a b) :=
  fun _ _ _ => ⟨_, _, rfl, trivial⟩

end Sys2Proof.Laws.SelectorByte
end

