-- ==== Sys2Proof/Tests/Slice0.lean ====
section
/-! SUPPORT. The tests. Expected values come from the layouts of 30_encoding and the vectors of 95_test_vectors (named V-…, P1 to P7
and S1 to S13 there), never from the model. The last part shows, for each obligation that has hypotheses, a concrete state and operands
that meet them, clause by clause. -/

namespace Sys2Proof.Tests

open Sys2Proof Sys2Proof.Machine

/-! ### Ill-formed terms are refused -/

def smRule : BcastRule := ⟨0xFF, 0x01, .stateMessage, 23⟩
def sm2Rule : BcastRule := ⟨0xFF, 0x02, .stateMessage2, 18⟩
def boardRule : BcastRule := ⟨0xFF, 0x85, .broadcast 1, 20⟩
def bits0 : MtzBits := mtzZero.toMtzBits
def wall0 : WallBits := wallZero.toWallBits

/-- No broadcast rule: no StateMessage, StateMessage2 or broadcast exists. -/
theorem test_wf_no_rule : WellFormed [] 64 (.stateMessage (List.replicate 23 1)) = false ∧
    WellFormed [] 64 (.stateMessage2 (List.replicate 18 1)) = false ∧
    WellFormed [] 64 (.broadcast 1 (List.replicate 20 1)) = false := by decide

/-- A broadcast of another length than its rule's. -/
theorem test_wf_bcast_length : WellFormed [boardRule] 64 (.broadcast 1 (0x85 :: List.replicate 6 0)) = false := by decide

/-- A broadcast of another type than its rule's. -/
theorem test_wf_bcast_type : WellFormed [boardRule] 64 (.broadcast 2 (0x85 :: List.replicate 19 0)) = false := by decide

/-- A zone frame whose tag a broadcast rule takes (V-CL-12). -/
theorem test_wf_zone_shadowed : WellFormed [boardRule] 64 (.zoneMasterController 5 bits0 0) = false ∧
    WellFormed [⟨0xF0, 0xC0, .broadcast 1, 20⟩] 64 (.zoneWallController 5 wall0 0) = false := by decide

/-- An Unknown frame that a rule takes, one with the other cause, one without bytes, one longer than the buffer. -/
theorem test_wf_unknown : WellFormed [] 64 (.unknown .unknownTag [0x3A, 0x2C]) = false ∧
    WellFormed [] 64 (.unknown .lengthMismatch [0x3A, 0x2C]) = false ∧
    WellFormed [] 64 (.unknown .lengthMismatch [0x3E]) = false ∧ WellFormed [] 64 (.unknown .unknownTag []) = false ∧
    WellFormed [] 64 (.unknown .unknownTag (List.replicate 65 0x55)) = false := by decide

/-- PROCESS_MESSAGE with another byte count than its length argument. -/
theorem test_wf_process_message : WellFormed [] 64 (.processMessage 3 [0x3A, 0x2C]) = false ∧
    WellFormed [] 256 (.processMessage 257 (List.replicate 257 0)) = false := by decide

/-- An unassigned selector that is a row of R59. -/
theorem test_wf_unassigned : WellFormed [] 64 (.unassignedSelector 0x06 [0, 220]) = false ∧
    WellFormed [] 64 (.unassignedSelector 0x0E [2, 0x3A, 0x2C]) = false ∧
    WellFormed [] 64 (.unassignedSelector 0x11 []) = false := by decide

/-! ### Every constructor's decoding, from words written out by the layouts of R50, R51, R54, R59 -/

theorem test_decode_masterSetpoint : decode [] .bus [0b00111010, 0b00101100] = .masterSetpoint 44 := by decide
theorem test_decode_fanMode : decode [] .bus [0b00111011, 0b10000010] = .fanMode 0x82 := by decide
theorem test_decode_operatingMode : decode [] .bus [0b00111100, 0b00000110] = .operatingMode 6 := by decide
theorem test_decode_zoneState : decode [] .bus [0b00111101, 0b00000011] = .zoneState 3 := by decide
theorem test_decode_customZoneSetpoint :
    decode [] .bus [0b00111111, 0b00000011, 0b00111011] = .customZoneSetpoint 3 59 := by decide
theorem test_decode_stateMessage :
    decode [smRule] .bus (0x01 :: List.replicate 22 9) = .stateMessage (0x01 :: List.replicate 22 9) := by decide
theorem test_decode_stateMessage2 :
    decode [smRule, sm2Rule] .bus (0x02 :: List.replicate 17 9) = .stateMessage2 (0x02 :: List.replicate 17 9) := by decide
theorem test_decode_broadcast :
    decode [boardRule] .bus (0x85 :: List.replicate 19 9) = .broadcast 1 (0x85 :: List.replicate 19 9) := by decide
/-- Zone 5, sp 50, on, open, `unk` 0, low10 0x3A2 (V-WL-5); the second word sets `init` and `unk` alone. -/
theorem test_decode_zoneWallController :
    decode [] .bus [0b11000101, 0b00110010, 0b11000011, 0b10100010, 0b11100000] =
      .zoneWallController 5
        { sp := 50, on := true, opn := true, config := false, init := false, unk := 0, low10 := 0b1110100010 } 0xE0 ∧
    decode [] .bus [0b11001000, 0, 0b00011100, 0, 0] =
      .zoneWallController 8
        { sp := 0, on := false, opn := false, config := false, init := true, unk := 3, low10 := 0 } 0 := by decide
/-- V-MZ-1. -/
theorem test_decode_zoneMasterController :
    decode [] .bus [0b10000010, 0b11101011, 0b11000110, 0b00100100, 0b00110000, 0b10111000, 0b11111010] =
      .zoneMasterController 2
        { temp9 := 235, compMode := true, zoneOn := true, transient := false, unkA := false, damper := 3, heating := false,
          unkB := false, min := 36, fanOnly := false, unkC := false, sp := 48, compActive := true, unkD := false, max := 56 }
        0xFA := by decide
/-- V-CL-5, V-CL-3, V-CL-4, V-CL-12. -/
theorem test_decode_unknown : decode [] .bus [0b00111110] = .unknown .unknownTag [0x3E] ∧
    decode [] .bus [0x3F, 3] = .unknown .lengthMismatch [0x3F, 3] ∧
    decode [] .bus [0x3A, 0x2C, 0] = .unknown .lengthMismatch [0x3A, 0x2C, 0] ∧
    decode [boardRule] .bus (0x85 :: List.replicate 6 0) = .unknown .lengthMismatch (0x85 :: List.replicate 6 0) := by
  decide
theorem test_decode_setSystemOn : decode [] .host [0x01, 1] = .setSystemOn true := by decide
theorem test_decode_setOperatingMode : decode [] .host [0x02, 6] = .setOperatingMode 6 := by decide
theorem test_decode_setFanSpeed : decode [] .host [0x03, 3] = .setFanSpeed 3 := by decide
theorem test_decode_setFanSpeedAbsolute : decode [] .host [0x04, 2, 1] = .setFanSpeedAbsolute 2 1 := by decide
theorem test_decode_setContinuousFanMode : decode [] .host [0x05, 1] = .setContinuousFanMode 1 := by decide
theorem test_decode_setMasterSetpoint : decode [] .host [0x06, 0xFF, 0xFE] = .setMasterSetpoint (-2) := by decide
theorem test_decode_setZoneOn : decode [] .host [0x07, 3, 1] = .setZoneOn 3 true := by decide
theorem test_decode_setZoneSetpointTemperature :
    decode [] .host [0x08, 2, 0x01, 0x27, 1] = .setZoneSetpointTemperature 2 295 true := by decide
theorem test_decode_setZoneCurrentTemperature :
    decode [] .host [0x09, 2, 0x00, 0xD7] = .setZoneCurrentTemperature 2 215 := by decide
theorem test_decode_setControlZone : decode [] .host [0x0A, 2, 0] = .setControlZone 2 false := by decide
theorem test_decode_sendZoneMasterOverride :
    decode [] .host [0x0B, 4, 0b11101011, 0b11000110, 0b00100100, 0b00110000, 0b10111000] =
      .sendZoneMasterOverride 4
        { temp9 := 235, compMode := true, zoneOn := true, transient := false, unkA := false, damper := 3, heating := false,
          unkB := false, min := 36, fanOnly := false, unkC := false, sp := 48, compActive := true, unkD := false,
          max := 56 } := by decide
theorem test_decode_clearStatus : decode [] .host [0x0C, 0x00, 0x01] = .clearStatus 1 := by decide
theorem test_decode_writeConfig : decode [] .host [0x0D, 0xFF] = .writeConfig 0xFF := by decide
theorem test_decode_processMessage : decode [] .host [0x0E, 2, 0x3A, 0x2C] = .processMessage 2 [0x3A, 0x2C] := by decide
/-- R59 with R3: 256 bytes, whose length byte is 0. -/
theorem test_decode_processMessage_256 :
    decode [] .host (0x0E :: 0 :: List.replicate 256 0x55) = .processMessage 256 (List.replicate 256 0x55) := by decide +kernel
theorem test_decode_readReg : decode [] .host [0x10, 0x1A] = .readReg 0x1A := by decide
theorem test_decode_getOperatingMode : decode [] .host [0x11] = .getOperatingMode := by decide
theorem test_decode_getFanMode : decode [] .host [0x12] = .getFanMode := by decide
theorem test_decode_getMaster : decode [] .host [0x13] = .getMaster := by decide
theorem test_decode_getZone : decode [] .host [0x14, 8] = .getZone 8 := by decide
theorem test_decode_getCompressor : decode [] .host [0x15] = .getCompressor := by decide
theorem test_decode_receivingData : decode [] .host [0x16] = .receivingData := by decide
theorem test_decode_pendingCount : decode [] .host [0x17] = .pendingCount := by decide
/-- V-HO-24, and a known selector with an argument too few. -/
theorem test_decode_unassignedSelector : decode [] .host [0x0F] = .unassignedSelector 0x0F [] ∧
    decode [] .host [0x18, 7] = .unassignedSelector 0x18 [7] ∧
    decode [] .host [0x06, 0] = .unassignedSelector 0x06 [0] := by decide
/-- Table words: the tag or selector alone, numbered from bit 0. -/
theorem test_table_words : decodeTableWord 8 0x3F = some (.customZoneSetpoint 0 0) ∧
    decodeTableWord 16 0x2C3A = some (.masterSetpoint 0x2C) ∧ decodeTableWord 8 0x17 = some .pendingCount := by decide

/-! ### Encodings of the spec's frames -/

def z7 : MtzFields := parseMtz [0x82, 0xEB, 0xC6, 0x24, 0x30, 0xB8, 0xFA]

/-- V-CS-1 to V-CS-9. -/
theorem test_checksums :
    [[0xC3, 0x2C, 0x80, 0x10], [0, 0, 0, 0], [0xFF, 0xFF, 0xFF, 0xFF], [0xC1, 0, 0, 0], [0xC1, 0x28, 0xA0, 0xFB],
      [0xC0, 0x2C, 0x80, 0x10], [0x82, 0xEB, 0xC6, 0x24, 0x30, 0xB8], [0, 0, 0, 0, 0, 0], [0x89, 0, 0, 0, 0, 0]].map checksum =
      [0x00, 0xFF, 0x04, 0x3E, 0xDB, 0x03, 0xFA, 0xFF, 0x76] := by decide
/-- V-TP-1 to V-TP-11. -/
theorem test_temp_from_raw : [-512, -200, -100, -59, -58, 81, 82, 150, 290, 511, 0, 16, 35].map tempFromRaw =
    [970, 484, 357, 310, 308, 169, 167, 98, -50, -294, 250, 234, 215] := by decide +kernel
/-- V-TP-12 to V-TP-17. -/
theorem test_raw_from_temp :
    [1100, 971, 970, 357, 310, 309, 308, 250, 169, 168, 167, 98, 350, -50, -294, -295, -600].map rawFromTemp =
      [-512, -512, -512, -100, -59, -59, -58, 0, 81, 81, 82, 150, -94, 290, 511, 511, 511] := by decide +kernel
/-- V-TP-18 to V-TP-20. -/
theorem test_setpoints : [222, 223, 172, 173, 240, 305, -3].map spFromTemp = [44, 45, 34, 35, 48, 61, -1] := by decide
/-- R93 and R97's examples: 22.0 degrees; 24.0, 18.0 and 28.0 degrees. R88: 22.0 degrees. -/
theorem test_setpoint_views : wallSetpoint (parseWall [0xC3, 0x2C, 0x80, 0x10, 0x00]).toWallBits = 220 ∧
    (mtzSetpoint z7.toMtzBits, mtzMinSetpoint z7.toMtzBits, mtzMaxSetpoint z7.toMtzBits) = (240, 180, 280) ∧
    (parseCommand (.masterSetpoint 44)).bind commandSetpoint = some 220 := by decide
/-- V-WL-3: the generated Open frame of 35.0 degrees. -/
theorem test_gen_wall :
    genWall
      { zone := 5, sp := 50, on := true, opn := true, config := false, init := false, unk := 0, low10 := 0x3A2
        csumOk := true } = [0xC5, 0x32, 0xC3, 0xA2, 0xE0] := by decide
/-- V-MZ-2: the generated frame with every unknown bit pattern. -/
theorem test_gen_mtz :
    genMtz
      { zone := 7, temp9 := 300, compMode := false, zoneOn := true, transient := true, unkA := true, damper := 7
        heating := true, unkB := true, min := 32, fanOnly := true, unkC := false, sp := 40, compActive := false
        unkD := true, max := 60, csumOk := true } = [0x87, 0x2C, 0x7F, 0xE0, 0xA8, 0x7C, 0x4A] := by decide
/-- V-MZ-1, V-MZ-2: classes and damper percentages. -/
theorem test_mtz_views : (opClass z7.toMtzBits, damperPct z7.damper) = (.cooling, 60) ∧ (damperPct 7, damperPct 5) = (100, 100) := by
  decide
/-- V-WL-6: a calibration offset of -0.5 degrees. -/
theorem test_calibration : wallCalibration (parseWall [0xC1, 0x28, 0xA0, 0xFB, 0xDB]).toWallBits = some (-5) ∧
    wallTemperature (parseWall [0xC1, 0x28, 0xA0, 0xFB, 0xDB]).toWallBits = none := by decide

/-! ### The meanings -/

/-- The next state meets `p`. -/
def nextHas (o : Result) (p : State → Bool) : Bool :=
  match o with
  | .next t => p t
  | .fault _ => false
  | .refused _ => false

/-- A frame completed at 0, and the last millisecond of liveness (V-SC-5). -/
def live : State := { State.reset with now := 2999, timing := { State.reset.timing with frameSeen := true } }

/-- Liveness just lost. -/
def stale : State := { live with now := 3000 }

/-- The fields the context of these tests decodes to. -/
def fields : StateFields :=
  { StateFields.absent with
    zoneSetpoint := Zones.const (some 46), zoneOnBitmap := some 3, averageTemperature := some 231, masterSetpoint := some 48
    operatingMode := some 5, lastOperatingMode := some 6, compressorMode := some true, compressorActive := some false
    fanSpeed := some 1, continuousFan := some true, fanActive := some true }

/-- A latched StateMessage that decodes to `fields`. -/
def known : State :=
  { live with
    params := { Params.reference with bcastRules := [smRule], stateDecode := [⟨.stateMessage, List.replicate 23 0, fields⟩] }
    latches := { live.latches with sm := ⟨List.replicate 23 0, true⟩ } }

/-- Zone 2 polled by V-MZ-1: range 36..56. -/
def polled : State := { known with latches := { known.latches with mtz := known.latches.mtz.set .z2 ⟨z7, true⟩ } }

/-- A command sent at 0, with the debounce in its last millisecond (V-SC-6). -/
def debounced : State := { live with timing := { live.timing with cmdSeen := true } }

/-- Zone 2 emulated at 21.5 degrees. -/
def emulated : State :=
  { polled with emu := { polled.emu with
      controlled := polled.emu.controlled.set .z2 true, emuTempValid := polled.emu.emuTempValid.set .z2 true
      emuTemp := polled.emu.emuTemp.set .z2 215 } }

/-- CSUM_REJECT set. -/
def rejecting : State := { live with regs := { live.regs with config := 1 } }

/-- V-CL-1: counted, live, no event. -/
theorem test_masterSetpoint : nextHas (exec (.masterSetpoint 44) stale) (fun t =>
    t.regs.cntFrames == 1 && t.regs.status == 0 && receivingData t && t.slots == stale.slots) = true := by decide
theorem test_fanMode : nextHas (exec (.fanMode 0xFC) stale) (fun t => t.regs.cntFrames == 1 && t.regs.status == 0) = true := by
  decide
/-- V-CL-11: a reserved mode raises nothing. -/
theorem test_operatingMode : nextHas (exec (.operatingMode 9) stale) (fun t =>
    t.regs.cntFrames == 1 && t.regs.status == 0) = true := by decide
theorem test_zoneState : nextHas (exec (.zoneState 3) stale) (fun t => t.regs.cntFrames == 1 && t.regs.status == 0) = true := by
  decide
/-- V-CL-2, with a zone out of range too (R87). -/
theorem test_customZoneSetpoint : nextHas (exec (.customZoneSetpoint 9 59) stale) (fun t =>
    t.regs.cntFrames == 1 && t.regs.status == 0) = true := by decide
/-- P6 at 1071: suppressed, still counted. -/
theorem test_stateMessage_suppressed : nextHas (exec (.stateMessage (List.replicate 23 7)) debounced) (fun t =>
    t.regs.status == 0x40 && t.regs.cnt.debounceSuppressed == 1 && t.regs.cntFrames == 1 && t.latches == debounced.latches) =
      true := by decide
/-- P6 at 81: latched, and the end of the sequence. -/
theorem test_stateMessage_latched : nextHas (exec (.stateMessage (List.replicate 23 7))
    { live with params := { live.params with finalType := some .stateMessage } }) (fun t =>
    t.latches.sm == ⟨List.replicate 23 7, true⟩ && t.timing.eosFlag) = true := by decide
theorem test_stateMessage2 : nextHas (exec (.stateMessage2 (List.replicate 18 7)) live) (fun t =>
    t.latches.sm2 == ⟨List.replicate 18 7, true⟩ && t.latches.sm == live.latches.sm && !t.timing.eosFlag) = true := by decide
theorem test_broadcast : nextHas (exec (.broadcast 1 []) debounced) (fun t =>
    t.regs.cntFrames == 1 && t.regs.status == 0 && t.latches == live.latches) = true := by decide
/-- `C3 2C 80 10 01` under CONFIG 0x00: accepted with `csumOk` 0. -/
theorem test_wall_bad_checksum : nextHas (exec (.zoneWallController 3 { wall0 with sp := 44, on := true, low10 := 16 } 1) live)
    (fun t => (t.latches.zw.get .z3).valid && !(t.latches.zw.get .z3).value.csumOk && t.regs.cntFrames == 1
      && t.regs.status == 8) = true := by decide
/-- `C3 2C 80 10 01` under CONFIG 0x01: dropped. -/
theorem test_wall_rejected : nextHas (exec (.zoneWallController 3 { wall0 with sp := 44, on := true, low10 := 16 } 1) rejecting)
    (fun t => !(t.latches.zw.get .z3).valid && t.regs.cntFrames == 0 && t.regs.status == 8) = true := by decide
/-- V-CL-9, V-SC-10: the poll of an emulated zone is latched and owes a response. -/
theorem test_mtz_owes : nextHas (exec (.zoneMasterController 2 z7.toMtzBits 0xFA) emulated) (fun t =>
    t.respPending.get .z2 && !t.respPending.get .z3 && (t.latches.mtz.get .z2).value == z7) = true := by decide
/-- V-CL-8: zone 9, whatever the checksum. -/
theorem test_mtz_zone_range : nextHas (exec (.zoneMasterController 9 bits0 0x76) live) (fun t =>
    t.regs.status == 0x10 && t.regs.cntFrames == 0 && t.latches == live.latches) = true := by decide
/-- V-CL-5, V-CL-3. -/
theorem test_unknown : nextHas (exec (.unknown .unknownTag [0x3E]) stale) (fun t =>
      t.regs.status == 2 && t.timing.tFrame == 3000 && t.regs.cntFrames == 0) = true ∧
    nextHas (exec (.unknown .lengthMismatch [0x3F, 3]) stale) (fun t => t.regs.status == 4) = true := by decide
/-- V-HO-5: Auto is left for OffAuto. -/
theorem test_setSystemOn : nextHas (exec (.setSystemOn false) known) (fun t => t.slots.opMode == ⟨1, true⟩) = true := by decide
/-- V-HO-6. -/
theorem test_setSystemOn_no_context : nextHas (exec (.setSystemOn true) live) (fun t =>
    t.regs.status == 0x200 && t.slots == live.slots) = true := by decide
/-- V-HO-7. -/
theorem test_setOperatingMode : nextHas (exec (.setOperatingMode 6) live) (fun t => t.slots.opMode == ⟨6, true⟩) = true ∧
    nextHas (exec (.setOperatingMode 8) live) (fun t => t.regs.status == 0x400 && t.slots == live.slots) = true := by decide
/-- V-HO-8, V-HO-9. -/
theorem test_setFanSpeed : nextHas (exec (.setFanSpeed 3) known) (fun t => t.slots.fanMode == ⟨0x83, true⟩) = true ∧
    nextHas (exec (.setFanSpeed 4) known) (fun t => t.regs.status == 0x400) = true := by decide
/-- V-HO-10. -/
theorem test_setFanSpeedAbsolute : nextHas (exec (.setFanSpeedAbsolute 2 1) live) (fun t =>
    t.slots.fanMode == ⟨0x82, true⟩) = true := by decide
/-- V-HO-11. -/
theorem test_setContinuousFanMode : nextHas (exec (.setContinuousFanMode 1) known) (fun t =>
    t.slots.fanMode == ⟨0x81, true⟩) = true := by decide
/-- V-HO-12, V-TP-21. -/
theorem test_setMasterSetpoint : nextHas (exec (.setMasterSetpoint 223) live) (fun t => t.slots.masterSp == ⟨45, true⟩) = true ∧
    nextHas (exec (.setMasterSetpoint (-32768)) live) (fun t => t.slots.masterSp == ⟨32, true⟩) = true := by decide
/-- P6 at 5, S8: a stale intent. -/
theorem test_stale : nextHas (exec (.setMasterSetpoint 220) stale) (fun t =>
    t == { stale with regs := { stale.regs with status := 0x80, cnt := { stale.regs.cnt with intentStale := 1 } } }) = true := by
  decide
/-- V-HO-13. -/
theorem test_setZoneOn : nextHas (exec (.setZoneOn 3 true) known) (fun t => t.slots.zoneState == ⟨7, true⟩) = true := by decide
/-- V-HO-14. -/
theorem test_setZoneOn_range : nextHas (exec (.setZoneOn 9 true) known) (fun t => t.regs.status == 0x100) = true ∧
    nextHas (exec (.setZoneOn 0 true) known) (fun t => t.regs.status == 0x100) = true := by decide
/-- V-HO-15, V-HO-16. -/
theorem test_setZoneSetpoint : nextHas (exec (.setZoneSetpointTemperature 2 295 true) polled) (fun t =>
      t.slots.masterSp == ⟨51, true⟩ && t.emu.desiredSp.get .z2 == 59 && t.slots.customSp == ⟨⟨2, 59⟩, true⟩) = true ∧
    nextHas (exec (.setZoneSetpointTemperature 2 160 true) polled) (fun t => t.slots.masterSp == ⟨44, true⟩) = true := by decide
/-- V-HO-18: without a master setpoint the whole operation is dropped. -/
theorem test_setZoneSetpoint_no_context : nextHas (exec (.setZoneSetpointTemperature 2 295 true)
    { polled with latches := { polled.latches with sm := live.latches.sm } }) (fun t =>
    t.regs.status == 0x200 && !t.emu.desiredValid.get .z2 && t.slots == live.slots) = true := by decide
/-- V-HO-20. -/
theorem test_setZoneCurrentTemperature : nextHas (exec (.setZoneCurrentTemperature 2 215) stale) (fun t =>
    t.emu.emuTemp.get .z2 == 215 && t.emu.emuTempValid.get .z2) = true := by decide
/-- V-HO-20, and R132: giving the zone up cancels its response. -/
theorem test_setControlZone : nextHas (exec (.setControlZone 2 true) stale) (fun t => t.emu.controlled.get .z2) = true ∧
    nextHas (exec (.setControlZone 2 false) { emulated with respPending := Zones.const true }) (fun t =>
      !t.emu.controlled.get .z2 && !t.respPending.get .z2 && t.respPending.get .z1) = true := by decide
/-- V-HO-29, and R133. -/
theorem test_sendZoneMasterOverride : nextHas (exec (.sendZoneMasterOverride 9 bits0) stale) (fun t => t.regs.status == 0x100) = true ∧
    nextHas (exec (.sendZoneMasterOverride 4 z7.toMtzBits) stale) (fun t =>
      t.slots.mtz.get .z4 == ⟨{ z7 with zone := 4 }, true⟩) = true := by decide
/-- V-HO-21. -/
theorem test_clearStatus : nextHas (exec (.clearStatus 1) { live with regs := { live.regs with status := 3 } }) (fun t =>
    t.regs.status == 2) = true := by decide
/-- V-HO-22. -/
theorem test_writeConfig : nextHas (exec (.writeConfig 0xFF) live) (fun t => t.regs.config == 1) = true := by decide
/-- V-HO-25, V-HO-26. -/
theorem test_processMessage : nextHas (exec (.processMessage 5 [0xC3, 0x2C, 0x80, 0x10, 0x00]) stale) (fun t =>
      (t.latches.zw.get .z3).valid && t.timing.frameSeen && t.framer == stale.framer && t.timing.tRx == stale.timing.tRx) = true ∧
    nextHas (exec (.processMessage 0 []) stale) (fun t => t.regs.status == 0x400) = true := by decide
/-- R59 with R3: 256 bytes are a frame where the capacity is 256, and an unknown tag. -/
theorem test_processMessage_256 : nextHas (exec (.processMessage 256 (List.replicate 256 0x55))
    { stale with params := { stale.params with frameCap := 256 } }) (fun t => t.regs.status == 2 && t.timing.frameSeen) = true := by
  decide +kernel
/-- V-HO-28: opMode, fanMode and mtz[4] pending. -/
def three : State :=
  { live with slots := { live.slots with
      opMode := ⟨6, true⟩, fanMode := ⟨0x82, true⟩, mtz := live.slots.mtz.set .z4 ⟨mtzZero, true⟩ } }
/-- V-HO-28, V-HO-23. -/
theorem test_readReg : nextHas (exec (.readReg 0x02) three) (fun t => t.out.hostResult == .register 0x805) = true ∧
    nextHas (exec (.readReg 0x1B) three) (fun t => t.out.hostResult == .register 0 && t.regs.status == 0x400) = true := by decide
/-- V-HO-28. -/
theorem test_pendingCount : nextHas (exec .pendingCount three) (fun t => t.out.hostResult == .pendingCount 3) = true := by decide
theorem test_getOperatingMode : nextHas (exec .getOperatingMode known) (fun t =>
    t.out.hostResult == .operatingMode ⟨true, 5⟩ ⟨true, 6⟩) = true := by decide
theorem test_getFanMode : nextHas (exec .getFanMode known) (fun t =>
    t.out.hostResult == .fanMode ⟨true, 1⟩ ⟨true, true⟩ ⟨true, true⟩) = true := by decide
theorem test_getMaster : nextHas (exec .getMaster known) (fun t => t.out.hostResult == .master ⟨true, 48⟩ ⟨true, 231⟩) = true ∧
    nextHas (exec .getMaster live) (fun t => t.out.hostResult == .master ⟨false, 0⟩ ⟨false, 0⟩) = true := by decide
theorem test_getCompressor : nextHas (exec .getCompressor known) (fun t =>
    t.out.hostResult == .compressor ⟨true, true⟩ ⟨true, false⟩) = true := by decide
/-- V-HO-27, V-HO-29. -/
theorem test_getZone : nextHas (exec (.getZone 2) polled) (fun t =>
      t.out.hostResult == .zone ⟨true, true⟩ ⟨true, 46⟩ ⟨true, 235⟩ ⟨true, 60⟩) = true ∧
    nextHas (exec (.getZone 9) polled) (fun t =>
      t.out.hostResult == .zone ⟨false, false⟩ ⟨false, 0⟩ ⟨false, 0⟩ ⟨false, 0⟩ && t.regs.status == 0x100) = true := by decide
/-- V-SC-5. -/
theorem test_receivingData : nextHas (exec .receivingData live) (fun t => t.out.hostResult == .receivingData true) = true ∧
    nextHas (exec .receivingData stale) (fun t => t.out.hostResult == .receivingData false) = true := by decide
/-- V-HO-24. -/
theorem test_unassignedSelector : nextHas (exec (.unassignedSelector 0x0F []) live) (fun t =>
    t.regs.status == 0x400 && t.regs.cnt.badArgument == 1) = true := by decide

/-! ### The framer, the arbiter and the transmitter -/

/-- A state at a time, with the next event. -/
def fed (s : State) (e : Event) : State := { s with inputs := [e] }

/-- Five bytes of `C3 2C 80 10 00` received, the last at 112 (V-FR-3). -/
def framed : State :=
  { State.reset with
    now := 115
    framer := { buf := [(0, 0xC3), (1, 0x2C), (2, 0x80), (3, 0x10)], len := 5, tLast := 112, echoAcc := false } }

/-- V-FR-3: completed at 117, not at 116. -/
theorem test_silence : nextHas (step (fed framed (.tick 116))) (fun t => t.framer.len == 5) = true ∧
    nextHas (step (fed framed (.tick 117))) (fun t =>
      t.framer.len == 0 && (t.latches.zw.get .z3).valid && t.regs.cntFrames == 1) = true := by decide
/-- P1 at 117: the byte first completes the frame, then starts another. -/
theorem test_gap_byte : nextHas (step (fed framed (.rxByte 117 0x3A))) (fun t =>
    t.framer == { buf := [(0, 0x3A), (1, 0x2C), (2, 0x80), (3, 0x10)], len := 1, tLast := 117, echoAcc := false }
      && t.regs.cntFrames == 1) = true := by decide
/-- V-FR-5: the buffer is full. -/
theorem test_overflow : nextHas (step (fed { framed with framer := { framed.framer with len := 64 } } (.rxByte 115 0x55))) (fun t =>
    t.framer.len == 0 && t.regs.status == 1 && !t.timing.frameSeen && t.timing.tRx == 115) = true := by decide
/-- V-FR-8: the echo window after an end at 38 holds 49 ms after it and not 50 ms after it. -/
theorem test_echo_window : (fun s : State => (isEchoByte { s with now := 87 }, isEchoByte { s with now := 88 }))
    { State.reset with timing := { State.reset.timing with txEndSeen := true, tTxEnd := 38 } } = (true, false) := by decide

/-- The last byte at 28, with the operating mode and the fan mode pending (P2). -/
def waiting : State :=
  { live with
    timing := { live.timing with rxSeen := true, tRx := 28 }
    slots := { live.slots with opMode := ⟨6, true⟩, fanMode := ⟨0x82, true⟩ } }

/-- V-SC-1: the quiet window is 528..1027. -/
theorem test_quiet : [527, 528, 1027, 1028].map (fun n => quiet { waiting with now := n }) = [false, true, true, false] := by decide
/-- P2 at 528: `3C 06` is sent and the fan mode waits. -/
theorem test_drain : nextHas (step (fed waiting (.tick 528))) (fun t =>
    txBytes t == [0x3C, 6] && t.tx.de && t.out.txStrobe && t.timing.windowUsed && t.timing.tCmd == 528
      && t.slots.opMode == ⟨6, false⟩ && t.slots.fanMode == ⟨0x82, true⟩) = true := by decide
/-- V-SC-10: the response of zone 2 with the master's setpoint. -/
theorem test_response : nextHas (step (fed { emulated with respPending := emulated.respPending.set .z2 true } (.tick 3000))) (fun t =>
    txBytes t == [0xC2, 0x30, 0x80, 0x23, 0xEA] && !t.respPending.get .z2 && !t.timing.attSeen) = true := by decide
/-- V-SC-11: the desired setpoint is clamped to max 56. -/
theorem test_response_clamped : nextHas (step (fed
    { emulated with
      respPending := emulated.respPending.set .z2 true
      emu := { emulated.emu with
        desiredValid := emulated.emu.desiredValid.set .z2 true, desiredSp := emulated.emu.desiredSp.set .z2 60 } }
    (.tick 3000))) (fun t => txBytes t == [0xC2, 0x38, 0x80, 0x23, 0xE2]) = true := by decide
/-- V-SC-7: the earliest ends of a transmission. -/
theorem test_tx_bound : [2, 3, 5, 7].map txLowerBound = [5, 7, 11, 15] := by decide

/-- A transmission of two bytes begun at 528 (P2). -/
def sending : State :=
  { waiting with
    now := 530, tx := { txBusy := true, txBuf := [(0, 0x3C), (1, 6)], txLen := 2, txStart := 528, de := true }
    timing := { waiting.timing with windowUsed := true, attSeen := true, tAtt := 528, cmdSeen := true, tCmd := 528 } }

/-- P2 at 534. -/
theorem test_tx_complete : nextHas (step (fed sending (.txComplete 534))) (fun t =>
    !t.tx.txBusy && !t.tx.de && t.timing.txEndSeen && t.timing.tTxEnd == 534) = true := by decide
/-- R41: a tick in every millisecond, with events of the same millisecond in any order. -/
theorem test_lawful_times :
    lawfulTimes ⟨0, false⟩ [.tick 0, .rxByte 1 0x3A, .tick 1, .host 1 0x16 [], .rxByte 2 0x2C, .tick 2, .tick 2] = true ∧
    lawfulTimes ⟨0xFFFFFFFF, true⟩ [.tick 0, .tick 1] = true := by decide
/-- R41: a millisecond without a tick, a t that falls (after an ignored end of transmission, too), a t that jumps. -/
theorem test_unlawful_times :
    lawfulTimes ⟨0, true⟩ [.rxByte 1 0x3A, .rxByte 2 0x2C] = false ∧ lawfulTimes ⟨0, true⟩ [.txComplete 1, .tick 0] = false ∧
    lawfulTimes ⟨0, true⟩ [.tick 2] = false := by decide
/-- Assumption 24: after a reset at 7 the next t goes on or starts again at 0, and is no other. -/
theorem test_times_after_reset : lawfulTimes ⟨7, true⟩ [.reset, .tick 8] = true ∧ lawfulTimes ⟨7, true⟩ [.reset, .tick 0] = true ∧
    lawfulTimes ⟨7, true⟩ [.reset, .tick 3] = false := by decide
/-- R160: a reset event. -/
theorem test_reset : nextHas (step (fed sending .reset)) (fun t => t == State.reset) = true := by decide
/-- A table word placed by `withFetchWord` runs at the next step: WRITE_CONFIG, and the frame `C0 00 00 00 00`. -/
theorem test_fetch : nextHas (step (State.reset.withFetchWord 16 0x010D)) (fun t => t.regs.config == 1) = true ∧
    nextHas (step (State.reset.withFetchWord 8 0xC0)) (fun t => t.regs.status == 0x10 && t.timing.frameSeen) = true := by decide

/-! ### The hypotheses of the obligations are met -/

/-- DecodeInvertsEncode: well-formed instructions of every family. -/
theorem test_witness_DecodeInvertsEncode :
    [Instr.masterSetpoint 44, .customZoneSetpoint 255 0, .stateMessage (0x01 :: List.replicate 22 9),
      .broadcast 1 (0x85 :: List.replicate 19 9), .zoneWallController 15 wall0 0, .zoneMasterController 0 bits0 0xFF,
      .unknown .unknownTag [0x3E], .unknown .lengthMismatch [0x3F], .setMasterSetpoint (-32768), .processMessage 1 [0],
      .unassignedSelector 0x06 [0]].all (WellFormed [smRule, boardRule] 64) = true := by decide

/-- TagsClassifyFirstMatch: a command tag, a broadcast tag, and tags of the last clause at their boundaries. -/
theorem test_witness_TagsClassifyFirstMatch :
    [0x3A, 0x3F].all isCommandTag = true ∧
    (isCommandTag 0x85 = false ∧ [boardRule].find? (fun r => r.hits 0x85) = some boardRule) ∧
    [0x80, 0x8F, 0xC0, 0xCF, 0x3E, 0x90].all (fun tag =>
      !isCommandTag tag && ([boardRule].find? (fun r => r.hits tag)).isNone) = true := by decide

/-- GenWallOfParseWall: V-WL-2 at the lower bound of the tag, V-WL-4 at the upper. -/
theorem test_witness_GenWallOfParseWall :
    (0xC1 ≤ (0xC1 : Byte).toNat ∧ (0xC1 : Byte).toNat ≤ 0xC8 ∧ (0xDB : Byte) = checksum [0xC1, 0x28, 0xA0, 0xFB]) ∧
    (0xC1 ≤ (0xC8 : Byte).toNat ∧ (0xC8 : Byte).toNat ≤ 0xC8 ∧ (0xCF : Byte) = checksum [0xC8, 0x24, 0x11, 0x22]) := by decide

/-- GenMtzOfParseMtz: V-MZ-1, and the bounds of the tag. -/
theorem test_witness_GenMtzOfParseMtz :
    (0x81 ≤ (0x82 : Byte).toNat ∧ (0x82 : Byte).toNat ≤ 0x88 ∧
      (0xFA : Byte) = checksum [0x82, 0xEB, 0xC6, 0x24, 0x30, 0xB8]) ∧
    [0x81, 0x88].all (fun b : Byte => decide (0x81 ≤ b.toNat) && decide (b.toNat ≤ 0x88)) = true := by decide

/-- ChecksumHasClosedForm: prefixes of four and of six bytes. -/
theorem test_witness_ChecksumHasClosedForm : ([0xC3, 0x2C, 0x80, 0x10] : List Byte).length = 4 ∧
    ([0x82, 0xEB, 0xC6, 0x24, 0x30, 0xB8] : List Byte).length = 6 := by decide

/-- RomFollowsTheBranches, RomStrictlyDecreases, TemperatureRoundTrips: the ends of both ranges, and a temperature inside. -/
theorem test_witness_Rom : ((-512 : Int) ≤ -512 ∧ (-512 : Int) < 511 ∧ (511 : Int) ≤ 511) ∧
    ((-294 : Int) ≤ -294 ∧ (970 : Int) ≤ 970 ∧ (-294 : Int) ≤ 309 ∧ (309 : Int) ≤ 970) := by decide

/-- RawFromTempIsTheRoundedRoot: at both ends of `s16`, the coefficients and the root exist. -/
theorem test_witness_RawFromTempIsTheRoundedRoot (d : Int) (h : d = -32768 ∨ d = 309 ∨ d = 32767) :
    ∃ a b c x : ℝ, -32768 ≤ d ∧ d ≤ 32767 ∧
      (a, b, c) = (if 309 ≤ d then (0.00007124, -0.1052, 24.5) else (-0.00001457, -0.0988, 24.923)) ∧
      x = (-b - Real.sqrt (b * b - 4 * a * (c - d / 10))) / (2 * a) :=
  ⟨_, _, _, _, by omega, by omega, rfl, rfl⟩

/-- WallViewsFollowFlags: generated flags of a record, and the two carrying cases. -/
theorem test_witness_WallViewsFollowFlags :
    wallFlags .opn .config = (true, true, true, false) ∧
    (fun f : WallBits => f.init = false ∧ f.config = true) { wall0 with on := true, opn := true, config := true } ∧
    (wall0.init = true ∨ wall0.config = false) ∧ { wall0 with config := true, init := true }.init = true := by decide

/-- RaiseSetsBitAndCounts: another bit and another event. -/
theorem test_witness_RaiseSetsBitAndCounts : 10 ≠ eventCode .frameTooLong ∧ EventCode.badArgument ≠ .frameTooLong := by decide

/-- StatusBitsAreSticky: a tick, with UNKNOWN_TAG set. -/
theorem test_witness_StatusBitsAreSticky :
    (fun s : State =>
      (∃ t, step s = .next t) ∧ s.regs.status.getLsbD 1 = true ∧
        (∀ time args rest, s.inputs ≠ .host time 0x0C args :: rest) ∧ ∀ rest, s.inputs ≠ .reset :: rest)
      (fed { waiting with regs := { waiting.regs with status := 2 } } (.tick 600)) :=
  ⟨⟨_, rfl⟩, by decide, fun _ _ _ h => (by cases h), fun _ h => (by cases h)⟩

/-- StateMessagesLatchUnlessDebounced: the first millisecond without the debounce, and the last with it. -/
theorem test_witness_StateMessages : debounceActive { debounced with now := 3000 } = false ∧ debounceActive debounced = true := by
  decide

/-- WallFrameLatches: V-WL-2's checksum, and a bad one while CSUM_REJECT is 0. -/
theorem test_witness_WallFrameLatches :
    (0xDB : Byte) = checksum (packWallBits (BitVec.ofNat 4 Zone.z1.number)
      { wall0 with sp := 40, on := true, config := true, low10 := 0x0FB }) ∧
    (0x00 : Byte) ≠ checksum (packWallBits (BitVec.ofNat 4 Zone.z8.number) wall0) ∧ live.regs.config.getLsbD 0 = false := by
  decide

/-- MtzFrameLatchesAndOwesResponse: V-MZ-1's checksum, and a bad one while CSUM_REJECT is 0. -/
theorem test_witness_MtzFrameLatches :
    (0xFA : Byte) = checksum (packMtzBits (BitVec.ofNat 4 Zone.z2.number) z7.toMtzBits) ∧
    (0x00 : Byte) ≠ checksum (packMtzBits (BitVec.ofNat 4 Zone.z8.number) bits0) ∧ live.regs.config.getLsbD 0 = false := by
  decide

/-- DroppedFramesOnlyRaise: zones 0, 9 and 15; zones 1 and 8 with bad checksums while CSUM_REJECT is 1. -/
theorem test_witness_DroppedFramesOnlyRaise :
    ((0 : BitVec 4).toNat < 1 ∧ 8 < (9 : BitVec 4).toNat ∧ 8 < (15 : BitVec 4).toNat) ∧
    (1 ≤ (1 : BitVec 4).toNat ∧ (8 : BitVec 4).toNat ≤ 8 ∧ rejecting.regs.config.getLsbD 0 = true ∧
      (0x00 : Byte) ≠ checksum (packWallBits 1 wall0) ∧ (0x00 : Byte) ≠ checksum (packWallBits 8 wall0) ∧
      (0x00 : Byte) ≠ checksum (packMtzBits 1 bits0) ∧ (0x00 : Byte) ≠ checksum (packMtzBits 8 bits0)) := by decide

/-- FramesLeaveTheRest: a wall frame, with `eosFlag` set. -/
theorem test_witness_FramesLeaveTheRest :
    ∃ t, exec (Frame.zoneWallController 3 wall0 0).toInstr { live with timing := { live.timing with eosFlag := true } } = .next t :=
  ⟨_, rfl⟩

/-- StaleIntentsAreDropped. -/
theorem test_witness_StaleIntentsAreDropped : receivingData stale = false := by decide

/-- SystemOnMapsTheMode: a mode at each end of 0..7, none, and the first reserved one. -/
theorem test_witness_SystemOnMapsTheMode :
    (receivingData three = true ∧ three.slots.opMode.pending = true ∧ three.slots.opMode.value = 6 ∧ (6 : Byte).toNat ≤ 7) ∧
    (receivingData known = true ∧ known.slots.opMode.pending = false ∧ (srcFields known).operatingMode = some 5 ∧
      (5 : Byte).toNat ≤ 7) ∧
    (receivingData live = true ∧ live.slots.opMode.pending = false ∧ (srcFields live).operatingMode = none) ∧
    (fun s : State => receivingData s = true ∧ s.slots.opMode.pending = true ∧ s.slots.opMode.value = 8 ∧ 7 < (8 : Byte).toNat)
      { live with slots := { live.slots with opMode := ⟨8, true⟩ } } := by decide

/-- OperatingModeIsQueued: modes 7 and 8, live and stale. -/
theorem test_witness_OperatingModeIsQueued : receivingData stale = false ∧ receivingData live = true ∧
    7 < (8 : Byte).toNat ∧ (7 : Byte).toNat ≤ 7 := by decide

/-- FanIntentsKeepTheOtherPart: the domains' boundaries, with a pending value, with decoded fields, with neither. -/
theorem test_witness_FanIntentsKeepTheOtherPart :
    (receivingData three = true ∧ three.slots.fanMode.pending = true) ∧
    (receivingData known = true ∧ known.slots.fanMode.pending = false ∧ (srcFields known).continuousFan = some true ∧
      (srcFields known).fanSpeed = some 1) ∧
    (receivingData live = true ∧ live.slots.fanMode.pending = false ∧ (srcFields live).continuousFan = none ∧
      (srcFields live).fanSpeed = none) ∧
    (3 < (4 : Byte).toNat ∧ (3 : Byte).toNat ≤ 3 ∧ 1 < (2 : Byte).toNat ∧ (1 : Byte).toNat ≤ 1) := by decide

/-- FanSpeedAbsoluteSetsBoth: each domain's boundary. -/
theorem test_witness_FanSpeedAbsoluteSetsBoth : receivingData stale = false ∧ receivingData live = true ∧
    (3 < (4 : Byte).toNat ∧ 1 < (2 : Byte).toNat) ∧ ((3 : Byte).toNat ≤ 3 ∧ (1 : Byte).toNat ≤ 1) := by decide

/-- MasterSetpointIsClamped: the clauses meet at 16.0 and 30.0 degrees. -/
theorem test_witness_MasterSetpointIsClamped : receivingData stale = false ∧ receivingData live = true ∧
    ((160 : Half).toInt ≤ 160 ∧ 160 ≤ (160 : Half).toInt) ∧ (300 ≤ (300 : Half).toInt ∧ (300 : Half).toInt ≤ 300) := by decide

/-- ZoneOnSwitchesOneBit: zones 0, 9, 1 and 8, with and without a bitmap. -/
theorem test_witness_ZoneOnSwitchesOneBit :
    ((0 : Byte).toNat < 1 ∧ 8 < (9 : Byte).toNat ∧ 1 ≤ (1 : Byte).toNat ∧ (8 : Byte).toNat ≤ 8) ∧
    (receivingData live = true ∧ live.slots.zoneState.pending = false ∧ (srcFields live).zoneOnBitmap = none) ∧
    (receivingData known = true ∧ known.slots.zoneState.pending = false ∧ (srcFields known).zoneOnBitmap = some 3) ∧
    (fun s : State => receivingData s = true ∧ s.slots.zoneState.pending = true ∧ s.slots.zoneState.value = 7)
      { known with slots := { known.slots with zoneState := ⟨7, true⟩ } } := by decide

/-- ZoneSetpointIsStoredAndShiftsMaster: the range 36..56 of zone 2, targets on its bounds and one half-degree outside, with and without
a master setpoint. -/
theorem test_witness_ZoneSetpoint :
    (receivingData stale = false ∧ (0 : Byte).toNat < 1 ∧ 8 < (9 : Byte).toNat) ∧
    (receivingData polled = true ∧ (polled.latches.mtz.get .z2).valid = true ∧ (polled.latches.mtz.get .z1).valid = false ∧
      (polled.latches.mtz.get .z2).value.min = 36 ∧ (polled.latches.mtz.get .z2).value.max = 56) ∧
    ([180, 280, 285, 175] : List Half).map (fun d => (BitVec.ofInt 8 (max 32 (min (spFromTemp d.toInt) 60)) : Byte)) =
      [36, 56, 57, 35] ∧
    ((57 : Byte).toNat : Int) - 56 = 1 ∧ ((35 : Byte).toNat : Int) - 36 = -1 ∧
    (polled.slots.masterSp.pending = false ∧ (srcFields polled).masterSetpoint = some 48) ∧
    (fun s : State => receivingData s = true ∧ s.slots.masterSp.pending = true ∧ s.slots.masterSp.value = 51)
      { polled with slots := { polled.slots with masterSp := ⟨51, true⟩ } } ∧
    (fun s : State => receivingData s = true ∧ s.slots.masterSp.pending = false ∧ (srcFields s).masterSetpoint = none)
      { polled with latches := { polled.latches with sm := live.latches.sm } } := by decide

/-- IntentsOnlyFillSlots: an intent that completes. -/
theorem test_witness_IntentsOnlyFillSlots : ∃ t, exec (.setOperatingMode 6) live = .next t := ⟨_, rfl⟩

/-- EmulationWritesApply and GetZoneAnswers: the arguments outside 1..8 nearest to it, and the greatest. -/
theorem test_witness_ZoneArguments : (0 : Byte).toNat < 1 ∧ 8 < (9 : Byte).toNat ∧ 8 < (255 : Byte).toNat := by decide

/-- ProcessMessageRunsTheFrame: 0, 65, 1 and 64 bytes with a buffer of 64, and 256 bytes. -/
theorem test_witness_ProcessMessageRunsTheFrame :
    [0, 65, 1, 64, 256].all (fun n => (List.replicate n (0 : Byte)).length == (BitVec.ofNat 9 n).toNat) = true ∧
    ((0 : BitVec 9).toNat < 1 ∧ live.params.frameCap < (65 : BitVec 9).toNat) ∧
    (1 ≤ (1 : BitVec 9).toNat ∧ (64 : BitVec 9).toNat ≤ live.params.frameCap) ∧
    (fun s : State => (256 : BitVec 9).toNat ≤ s.params.frameCap)
      { live with params := { live.params with frameCap := 256 } } := by decide +kernel

/-- ReadRegFollowsTheMap: the unassigned numbers and the registers next to them; bit and event clauses. -/
theorem test_witness_ReadRegFollowsTheMap :
    [0x07, 0x09, 0x0F, 0x1B, 0xFF].all (fun n : Byte =>
      decide (n.toNat = 0x07 ∨ 0x09 ≤ n.toNat ∧ n.toNat ≤ 0x0F ∨ 0x1B ≤ n.toNat)) = true ∧
    [0x00, 0x06, 0x08, 0x10, 0x1A].all (fun n : Byte =>
      decide (n.toNat ≤ 0x06 ∨ n.toNat = 0x08 ∨ 0x10 ≤ n.toNat ∧ n.toNat ≤ 0x1A)) = true ∧
    ((0x10 : Byte).toNat = 0x10 + eventCode .frameTooLong ∧ (0x1A : Byte).toNat = 0x10 + eventCode .badArgument) := by decide

/-- AccessorsAnswer: a StateMessage latched, only a StateMessage2, neither. -/
theorem test_witness_AccessorsAnswer :
    (known.latches.sm.valid = true ∧ fields = stateDecode known.params .stateMessage known.latches.sm.value) ∧
    (fun s : State => s.latches.sm.valid = false ∧ s.latches.sm2.valid = true)
      { live with latches := { live.latches with sm2 := ⟨List.replicate 18 0, true⟩ } } ∧
    (live.latches.sm.valid = false ∧ live.latches.sm2.valid = false) := by decide

/-- UnassignedSelectorIsRefused: unknown selectors, a known one with an argument too few, and lengths that are not the bytes'. -/
theorem test_witness_UnassignedSelector : selectorTakes 0x00 [] = false ∧ selectorTakes 0x0F [] = false ∧
    selectorTakes 0x18 [] = false ∧ selectorTakes 0xFF [1] = false ∧ selectorTakes 0x06 [0] = false ∧
    selectorTakes 0x0E [1] = false ∧ selectorTakes 0x0E (1 :: List.replicate 257 0) = false := by decide +kernel

/-- StepRunsTheDecodedInstruction: a host event; a tick and a byte that find the silence elapsed, at 5 ms, over a peer's frame and over
an echo frame; a tick at 4 ms, and one with no frame. -/
theorem test_witness_StepRunsTheDecodedInstruction :
    decodeHost 0x0D [1] = .writeConfig 1 ∧
    (0 < framed.framer.len ∧ framed.framer.len ≤ framed.params.frameCap ∧
      5 ≤ ((117 : Word) - framed.framer.tLast).toNat ∧ framed.framer.echoAcc = false ∧
      (decodeFrame framed.params.bcastRules ((List.range framed.framer.len).map (memoryRead framed.framer.buf))).toInstr =
        .zoneWallController 3 { wall0 with sp := 44, on := true, low10 := 16 } 0) ∧
    (∃ t, exec (.zoneWallController 3 { wall0 with sp := 44, on := true, low10 := 16 } 0) framed = .next t) ∧
    (((116 : Word) - framed.framer.tLast).toNat < 5 ∧ waiting.framer.len = 0) ∧
    (fun s : State => 0 < s.framer.len ∧ s.framer.len ≤ s.params.frameCap ∧ 5 ≤ ((117 : Word) - s.framer.tLast).toNat ∧
      s.framer.echoAcc = true) { framed with framer := { framed.framer with echoAcc := true } } :=
  ⟨by decide, by decide, ⟨_, rfl⟩, by decide, by decide⟩

/-- RxByteIsStored: an empty buffer, and the last free address with a gap of 4 ms; a peer byte, and an echo byte at 49 ms. -/
theorem test_witness_RxByteIsStored :
    (State.reset.framer.len < State.reset.params.frameCap ∧ State.reset.framer.len = 0) ∧
    (fun s : State => s.framer.len < s.params.frameCap ∧ ((116 : Word) - s.framer.tLast).toNat < 5)
      { framed with framer := { framed.framer with len := 63 } } ∧
    ¬(framed.tx.txBusy = true ∨
      framed.timing.txEndSeen = true ∧ ((116 : Word) - framed.timing.tTxEnd).toNat < framed.params.tEcho) ∧
    (fun s : State => s.timing.txEndSeen = true ∧ ((87 : Word) - s.timing.tTxEnd).toNat < s.params.tEcho)
      { State.reset with timing := { State.reset.timing with txEndSeen := true, tTxEnd := 38 } } := by decide

/-- OverflowDiscardsTheFrame: a full buffer, gap 4 ms. -/
theorem test_witness_OverflowDiscardsTheFrame :
    (fun s : State => s.framer.len = s.params.frameCap ∧ 0 < s.params.frameCap ∧ ((116 : Word) - s.framer.tLast).toNat < 5)
      { framed with framer := { framed.framer with len := 64 } } := by decide

/-- GapDecidesTheFrame: a tick between two bytes, the second 4 ms and 5 ms after the first. -/
theorem test_witness_GapDecidesTheFrame :
    memoryWf framed.framer.buf = true ∧ 0 < framed.framer.len ∧ framed.framer.len < framed.params.frameCap ∧
    (((116 : Word) - framed.framer.tLast).toNat = 4 ∧ ((116 : Word) - framed.framer.tLast).toNat ≤
      ((116 : Word) - framed.framer.tLast).toNat) ∧
    (((117 : Word) - framed.framer.tLast).toNat = 5 ∧ ((116 : Word) - framed.framer.tLast).toNat ≤
      ((117 : Word) - framed.framer.tLast).toNat) ∧
    ({ framed with inputs := [.tick 116, .rxByte 117 0x3A] } : State).inputs = [.tick 116] ++ .rxByte 117 0x3A :: [] := by decide

/-- At 50, outside the quiet window, after the final frame of a sequence (R107). -/
def ended : State := { waiting with now := 50, timing := { waiting.timing with eosFlag := true } }

/-- R107: the drain of an ended sequence does not wait for the quiet window. -/
theorem test_drain_ended : nextHas (step (fed ended (.tick 50))) (fun t =>
    txBytes t == [0x3C, 6] && !t.timing.eosFlag && t.timing.windowUsed) = true ∧ quiet ended = false := by decide

/-- DrainSendsTheHighestSlot: the operating mode is first, in the quiet window at 528, and through `eosFlag` outside it at 50. -/
theorem test_witness_DrainSendsTheHighestSlot :
    ∀ s ∈ [{ waiting with now := 528 }, ended],
      (quiet s = true ∨ s.timing.eosFlag = true) ∧ spacingOk s = true ∧ s.timing.windowUsed = false ∧ s.tx.txBusy = false ∧
        s.framer.len = 0 ∧ Zone.all.all (fun z => !s.respPending.get z) = true ∧ slotPending s .opMode = true ∧
        slotOrder.idxOf .opMode = 0 ∧ memoryWf s.tx.txBuf = true := by decide

/-- DrainNeedsItsConditions: the tick of 528; a frame in flight, one being received, each condition of a drain failing alone at a
boundary, and no slot pending. -/
theorem test_witness_DrainNeedsItsConditions :
    (closeIfSilent { waiting with now := 528 } = .next { waiting with now := 528 } ∧
      ∃ t, tick 528 waiting = .next t ∧ t.timing ≠ ({ waiting with now := 528 } : State).timing) ∧
    (sending.tx.txBusy = true ∧ 0 < framed.framer.len ∧ Zone.all.all (fun z => !waiting.respPending.get z) = true) ∧
    (fun s : State => quiet s = false ∧ s.timing.eosFlag = false ∧ spacingOk s = true) { waiting with now := 527 } ∧
    (fun s : State => spacingOk s = false ∧ quiet s = true)
      { waiting with now := 899, timing := { waiting.timing with attSeen := true } } ∧
    (fun s : State => s.timing.windowUsed = true) { waiting with timing := { waiting.timing with windowUsed := true } } ∧
    slotOrder.all (fun k => !slotPending live k) = true :=
  ⟨⟨by rfl, _, rfl, by decide⟩, by decide, by decide, by decide, by decide, by decide⟩

/-- OneDrainPerWindow: two events after a drain, the end of the transmission and a tick. -/
theorem test_witness_OneDrainPerWindow :
    (fun s : State => s.timing.windowUsed = true ∧ (∃ t, core.run 2 s = .next t) ∧ ¬ OpensWindow s (.txComplete 534) ∧
      slotPending s .fanMode = true) { sending with inputs := [.txComplete 534, .tick 534] } :=
  ⟨by decide, ⟨_, rfl⟩, fun h => h, by decide⟩

/-- ResponseGoesFirst: zone 2 owes a response, without and with a desired setpoint. -/
theorem test_witness_ResponseGoesFirst :
    (fun s : State => s.tx.txBusy = false ∧ s.framer.len = 0 ∧ s.respPending.get .z2 = true ∧ s.respPending.get .z1 = false ∧
      s.emu.desiredValid.get .z2 = false ∧ (0x30 : Byte).toNat = (s.latches.mtz.get .z2).value.sp.toNat ∧
      rawFromTemp (s.emu.emuTemp.get .z2).toInt = 35 ∧
      (0x80 : Byte) = (if (s.latches.mtz.get .z2).value.zoneOn then 0x80 else 0) ||| BitVec.ofInt 8 (35 % 1024 / 256) ∧
      (0x23 : Byte) = BitVec.ofInt 8 35 ∧ memoryWf s.tx.txBuf = true)
      { emulated with respPending := emulated.respPending.set .z2 true } ∧
    (0x38 : Byte).toNat = max z7.min.toNat (min (60 : Byte).toNat z7.max.toNat) := by decide

/-- TxCompleteReleasesTheBus: nothing in flight, and a frame in flight. -/
theorem test_witness_TxCompleteReleasesTheBus : waiting.tx.txBusy = false ∧ sending.tx.txBusy = true ∧
    (fed sending (.txComplete 534)).inputs = .txComplete 534 :: [] := by decide

/-- HalfDuplexHolds, ParametersNeverChange: a tick during a transmission. -/
theorem test_witness_HalfDuplexHolds :
    (fun s : State => (∃ t, step s = .next t) ∧ s.tx.txBusy = true ∧ s.tx.de = true ∧
      (∀ u rest, s.inputs ≠ .txComplete u :: rest) ∧ ∀ rest, s.inputs ≠ .reset :: rest) (fed sending (.tick 531)) :=
  ⟨⟨_, rfl⟩, by decide, by decide, fun _ _ h => (by cases h), fun _ h => (by cases h)⟩

/-- ResetSetsEveryElement: a reset during a transmission. -/
theorem test_witness_ResetSetsEveryElement : (fed sending .reset).inputs = .reset :: [] := by decide

/-- ResetMeetsTheInvariant: the ends of the parameters' ranges, with broadcast rules and a final type. -/
theorem test_witness_ResetMeetsTheInvariant :
    [({ frameCap := 64, tEcho := 50, hasDe := false, bcastRules := [], finalType := none, stateDecode := [] } : Params),
      { frameCap := 256, tEcho := 100, hasDe := true, bcastRules := [smRule, sm2Rule, boardRule]
        finalType := some (.broadcast 1), stateDecode := [] }].all Params.valid = true := by decide

/-- StepKeepsTheInvariant: a state in the middle of a transmission meets the invariant, and steps. -/
theorem test_witness_StepKeepsTheInvariant : Inv (fed sending (.tick 531)) ∧ ∃ t, step (fed sending (.tick 531)) = .next t := by
  refine ⟨?_, ⟨_, rfl⟩⟩
  constructor
  all_goals
    first
      | decide
      | (intro z; cases z <;> decide)

/-- NothingStopsTheMachine: a full buffer. -/
theorem test_witness_NothingStopsTheMachine :
    (fun s : State => s.framer.len ≤ s.params.frameCap) { framed with framer := { framed.framer with len := 64 } } := by decide

end Sys2Proof.Tests
end

/-! ### What a received frame does, action by action

A completed frame, whatever its type, is a sequence of a few actions on the state. Each property of received frames is proved once
for each action. -/

namespace Sys2Proof.Machine

/-- One action of the received frame `f` (R81, R82, R86, R94, R100, R103). -/
inductive FrameAct (f : Frame) : State → State → Prop where
  | raise (k : EventCode) (s : State) : FrameAct f s (raiseEvent k s)
  | refresh (s : State) : FrameAct f s (refreshLiveness s)
  | count (s : State) : FrameAct f s (countFrame s)
  | final (ty : BcastType) (s : State) : FrameAct f s (markFinal ty s)
  | latchSm {bytes : List Byte} (hf : f = .stateMessage bytes) (s : State) : FrameAct f s (latchSm bytes s)
  | latchSm2 {bytes : List Byte} (hf : f = .stateMessage2 bytes) (s : State) : FrameAct f s (latchSm2 bytes s)
  | latchWall {z : Zone} {r : WallFields} (hz : r.zone.toNat = z.number) (s : State) : FrameAct f s (latchWall z r s)
  | latchMtz {z : Zone} {r : MtzFields} (hz : r.zone.toNat = z.number) (s : State) : FrameAct f s (latchMtz z r s)

/-- A run of actions of the frame `f`. -/
abbrev FrameActs (f : Frame) : State → State → Prop := Relation.ReflTransGen (FrameAct f)

theorem FrameActs.accept (f : Frame) (s : State) : FrameActs f s (countFrame (refreshLiveness s)) :=
  .tail (.single (.refresh s)) (.count _)

/-- The checks of a zone frame, then its effect (R81). -/
theorem FrameActs.zoneFrame {f : Frame} {zone : BitVec 4} {ok : Bool} {effect : Zone → State → State} (s : State)
    (he : ∀ z u, zone.toNat = z.number → FrameAct f u (effect z u)) :
    FrameActs f s (checkZoneFrame zone ok effect (refreshLiveness s)) := by
  have hl : FrameActs f s (refreshLiveness s) := .single (.refresh s)
  rcases checkZoneFrame_cases zone ok effect (refreshLiveness s) with ⟨-, h⟩ | ⟨z, hz, ⟨-, h⟩ | ⟨-, -, h⟩ | ⟨-, -, h⟩⟩ <;>
    rw [h]
  · exact hl.tail (.raise _ _)
  · exact (hl.tail (.count _)).tail (he z _ hz)
  · exact hl.tail (.raise _ _)
  · exact ((hl.tail (.raise _ _)).tail (.count _)).tail (he z _ hz)

/-- The debounce lets the latch take the message, or reports that it was suppressed (R103). -/
theorem FrameActs.debounced {f : Frame} {latch : State → State} {s u : State} (hu : FrameActs f s u)
    (hl : FrameAct f u (latch u)) : FrameActs f s (latchUnlessDebounced latch u) := by
  unfold latchUnlessDebounced
  split
  · exact hu.tail (.raise _ _)
  · exact hu.tail hl

/-- The effect of a frame is a run of its actions. -/
theorem applyFrame_acts (f : Frame) (s : State) : FrameActs f s (applyFrame f s) := by
  cases f with
  | stateMessage bytes => exact ((FrameActs.accept _ s).debounced (.latchSm rfl _)).tail (.final _ _)
  | stateMessage2 bytes => exact ((FrameActs.accept _ s).debounced (.latchSm2 rfl _)).tail (.final _ _)
  | broadcast k bytes => exact (FrameActs.accept _ s).tail (.final _ _)
  | zoneWallController zone f csum => exact .zoneFrame s fun z u hz => .latchWall hz u
  | zoneMasterController zone f csum => exact .zoneFrame s fun z u hz => .latchMtz hz u
  | unknown cause bytes => cases cause <;> exact .tail (.single (.refresh s)) (.raise _ _)
  | masterSetpoint sp => exact .accept _ s
  | fanMode v => exact .accept _ s
  | operatingMode mode => exact .accept _ s
  | zoneState bitmap => exact .accept _ s
  | customZoneSetpoint zone sp => exact .accept _ s

/-- A property that every action of a frame keeps, the frame keeps. -/
theorem applyFrame_preserves {P : State → Prop} {f : Frame} {s : State}
    (hP : ∀ u v, FrameAct f u v → P u → P v) (hs : P s) : P (applyFrame f s) := by
  have hrun := applyFrame_acts f s
  generalize applyFrame f s = t at hrun
  induction hrun with
  | refl => exact hs
  | tail _ hact ih => exact hP _ _ hact ih

end Sys2Proof.Machine

/-! ### What a host operation does -/

namespace Sys2Proof.Machine

/-- The effects a host operation `i` can have on the state `s`: an event raised, an answer given, or one write. Only CLEAR_STATUS
clears a STATUS bit, so its effect names it. -/
inductive HostEffect (i : Instr) (s : State) : State → Prop where
  | raised (k : EventCode) : HostEffect i s (raiseEvent k s)
  | answered (r : HostResult) : HostEffect i s (answer r s)
  | answeredRaised (r : HostResult) (k : EventCode) : HostEffect i s (answer r (raiseEvent k s))
  | opMode {m : Byte} (hm : m.toNat ≤ 7) :
      HostEffect i s { s with slots := { s.slots with opMode := enqueue m } }
  | zoneState (m : Byte) : HostEffect i s { s with slots := { s.slots with zoneState := enqueue m } }
  | fanMode (c : Bool) (speed : BitVec 2) :
      HostEffect i s { s with slots := { s.slots with fanMode := enqueue (fanByte c speed) } }
  | masterSp (x : Int) :
      HostEffect i s { s with slots := { s.slots with masterSp := enqueue (BitVec.ofInt 8 (clampSp x)) } }
  | desired (z : Zone) (x : Int) : HostEffect i s (storeDesired z (clampSp x) s)
  | shifted (z : Zone) (x y : Int) : HostEffect i s (storeDesired z (clampSp x)
      { s with slots := { s.slots with masterSp := enqueue (BitVec.ofInt 8 (clampSp y)) } })
  | temperature (z : Zone) (d : Half) : HostEffect i s { s with emu := { s.emu with
      emuTemp := s.emu.emuTemp.set z d
      emuTempValid := s.emu.emuTempValid.set z true } }
  | control (z : Zone) (en : Bool) : HostEffect i s { s with
      emu := { s.emu with controlled := s.emu.controlled.set z en }
      respPending := if en then s.respPending else s.respPending.set z false }
  | override (z : Zone) (f : MtzBits) : HostEffect i s { s with slots := { s.slots with
      mtz := s.slots.mtz.set z (enqueue (mtzRecord (BitVec.ofNat 4 z.number) f true)) } }
  | cleared {mask : Half} (hi : i = .clearStatus mask) :
      HostEffect i s { s with regs := { s.regs with status := s.regs.status &&& ~~~mask &&& 0x07FF#16 } }
  | configured (v : Byte) : HostEffect i s { s with regs := { s.regs with config := v &&& 0x01#8 } }
  | processed (bytes : List Byte) : HostEffect i s (processFrame bytes false s)

variable {i : Instr} {s t : State}

theorem HostEffect.of_next {u : State} (h : (.next u : Result) = .next t) (hu : HostEffect i s u) : HostEffect i s t := by
  cases h
  exact hu

/-! A check that fails raises its event; one that passes leaves the rest of the operation (R119). -/

theorem HostEffect.of_gated {k : State → Result} (h : gated s k = .next t)
    (hk : k s = .next t → HostEffect i s t) : HostEffect i s t := by
  rcases gated_cases h with ⟨-, h⟩ | ⟨-, rfl⟩
  · exact hk h
  · exact .raised _

theorem HostEffect.of_withZone {zone : Byte} {k : Zone → State → Result} (h : withZone zone s k = .next t)
    (hk : ∀ z, k z s = .next t → HostEffect i s t) : HostEffect i s t := by
  rcases withZone_cases h with ⟨z, -, h⟩ | ⟨-, rfl⟩
  · exact hk z h
  · exact .raised _

theorem HostEffect.of_withDomain {ok : Bool} {k : State → Result} (h : withDomain ok s k = .next t)
    (hk : ok = true → k s = .next t → HostEffect i s t) : HostEffect i s t := by
  rcases withDomain_cases h with ⟨hok, h⟩ | ⟨-, rfl⟩
  · exact hk hok h
  · exact .raised _

theorem HostEffect.of_withContext {α : Type} {v : Option α} {k : α → State → Result} (h : withContext v s k = .next t)
    (hk : ∀ x, k x s = .next t → HostEffect i s t) : HostEffect i s t := by
  rcases withContext_cases h with ⟨x, -, h⟩ | ⟨-, rfl⟩
  · exact hk x h
  · exact .raised _

/-- The codes of the modes are 0 to 7 (R48). -/
theorem opModeCode_le (m : OpMode) : (opModeCode m).toNat ≤ 7 := by cases m <;> decide

/-- SET_ZONE_SETPOINT_TEMPERATURE stores the clamped setpoint, and the shifted master setpoint where one is needed (R130). -/
theorem execSetZoneSetpointTemperature_effect {zone : Byte} {d : Half} {adjustMaster : Bool}
    (h : execSetZoneSetpointTemperature zone d adjustMaster s = .next t) : HostEffect i s t := by
  unfold execSetZoneSetpointTemperature at h
  refine .of_gated h fun h => .of_withZone h fun z h => ?_
  dsimp only at h
  split at h
  · exact .of_next h (.desired z _)
  · exact .of_withContext h fun b h => .of_next h (.shifted z _ _)

/-- READ_REG answers a register, or 0 and an event (R144). -/
theorem execReadReg_effect {n : Byte} (h : execReadReg n s = .next t) : HostEffect i s t := by
  unfold execReadReg at h
  split at h
  · exact .of_next h (.answered _)
  · exact .of_next h (.answeredRaised _ _)

/-- GET_ZONE answers a zone's readings, or invalid ones and an event (R140). -/
theorem execGetZone_effect {zone : Byte} (h : execGetZone zone s = .next t) : HostEffect i s t := by
  unfold execGetZone at h
  split at h
  · exact .of_next h (.answered _)
  · exact .of_next h (.answeredRaised _ _)

/-- Every host operation has one of the effects of `HostEffect`. -/
theorem exec_host_effect (hp : i.port = .host) (h : exec i s = .next t) : HostEffect i s t := by
  cases i with
  | setSystemOn on =>
    rw [exec_setSystemOn, execSetSystemOn] at h
    exact .of_gated h fun h => .of_withContext h fun m h => .of_next h (.opMode (opModeCode_le _))
  | setOperatingMode mode =>
    rw [exec_setOperatingMode, execSetOperatingMode] at h
    exact .of_gated h fun h => .of_withDomain h fun hm h => .of_next h (.opMode (of_decide_eq_true hm))
  | setFanSpeed speed =>
    rw [exec_setFanSpeed, execSetFanSpeed] at h
    exact .of_gated h fun h => .of_withDomain h fun _ h => .of_withContext h fun c h => .of_next h (.fanMode c _)
  | setFanSpeedAbsolute speed cont =>
    rw [exec_setFanSpeedAbsolute, execSetFanSpeedAbsolute] at h
    exact .of_gated h fun h => .of_withDomain h fun _ h => .of_next h (.fanMode _ _)
  | setContinuousFanMode cont =>
    rw [exec_setContinuousFanMode, execSetContinuousFanMode] at h
    exact .of_gated h fun h => .of_withDomain h fun _ h => .of_withContext h fun c h => .of_next h (.fanMode _ c)
  | setMasterSetpoint d =>
    rw [exec_setMasterSetpoint, execSetMasterSetpoint] at h
    exact .of_gated h fun h => .of_next h (.masterSp _)
  | setZoneOn zone on =>
    rw [exec_setZoneOn, execSetZoneOn] at h
    exact .of_gated h fun h => .of_withZone h fun z h => .of_withContext h fun m h => .of_next h (.zoneState _)
  | setZoneSetpointTemperature zone d adjustMaster => exact execSetZoneSetpointTemperature_effect h
  | setZoneCurrentTemperature zone d =>
    rw [exec_setZoneCurrentTemperature, execSetZoneCurrentTemperature] at h
    exact .of_withZone h fun z h => .of_next h (.temperature z d)
  | setControlZone zone en =>
    rw [exec_setControlZone, execSetControlZone] at h
    exact .of_withZone h fun z h => .of_next h (.control z en)
  | sendZoneMasterOverride zone f =>
    rw [exec_sendZoneMasterOverride, execSendZoneMasterOverride] at h
    exact .of_withZone h fun z h => .of_next h (.override z f)
  | clearStatus mask => exact .of_next h (.cleared rfl)
  | writeConfig v => exact .of_next h (.configured v)
  | processMessage n bytes =>
    rw [exec_processMessage, execProcessMessage] at h
    exact .of_withDomain h fun _ h => .of_next h (.processed bytes)
  | readReg n => exact execReadReg_effect h
  | getZone zone => exact execGetZone_effect h
  | getOperatingMode => exact .of_next h (.answered _)
  | getFanMode => exact .of_next h (.answered _)
  | getMaster => exact .of_next h (.answered _)
  | getCompressor => exact .of_next h (.answered _)
  | receivingData => exact .of_next h (.answered _)
  | pendingCount => exact .of_next h (.answered _)
  | unassignedSelector sel args => exact .of_next h (.raised _)
  | _ => cases hp

end Sys2Proof.Machine

/-! ### What a selector decodes to -/

namespace Sys2Proof

/-- `i` stands in the row of the selector `sel`: it enters at the host port, and its encoding begins with `sel` (R59). -/
def HostRow (sel : Byte) (i : Instr) : Prop := i.port = .host ∧ (encode i).head? = some sel

variable {sel : Byte} {args : List Byte}

theorem HostRow.unassigned (sel : Byte) (args : List Byte) : HostRow sel (.unassignedSelector sel args) := ⟨rfl, rfl⟩

theorem HostRow.args0 {i : Instr} (h : HostRow sel i) : HostRow sel (args0 sel args i) := by
  unfold Sys2Proof.args0
  split
  · exact h
  · exact .unassigned _ _

theorem HostRow.args1 {k : Byte → Instr} (h : ∀ a, HostRow sel (k a)) : HostRow sel (args1 sel args k) := by
  unfold Sys2Proof.args1
  split
  · exact h _
  · exact .unassigned _ _

theorem HostRow.args2 {k : Byte → Byte → Instr} (h : ∀ a b, HostRow sel (k a b)) : HostRow sel (args2 sel args k) := by
  unfold Sys2Proof.args2
  split
  · exact h _ _
  · exact .unassigned _ _

theorem HostRow.args3 {k : Byte → Byte → Byte → Instr} (h : ∀ a b c, HostRow sel (k a b c)) :
    HostRow sel (args3 sel args k) := by
  unfold Sys2Proof.args3
  split
  · exact h _ _ _
  · exact .unassigned _ _

theorem HostRow.args4 {k : Byte → Byte → Byte → Byte → Instr} (h : ∀ a b c d, HostRow sel (k a b c d)) :
    HostRow sel (args4 sel args k) := by
  unfold Sys2Proof.args4
  split
  · exact h _ _ _ _
  · exact .unassigned _ _

theorem HostRow.args6 {k : Byte → MtzBits → Instr} (h : ∀ zone f, HostRow sel (k zone f)) :
    HostRow sel (args6 sel args k) := by
  unfold Sys2Proof.args6
  split
  · exact h _ _
  · exact .unassigned _ _

theorem HostRow.argsBytes {k : BitVec 9 → List Byte → Instr} (h : ∀ n bytes, HostRow sel (k n bytes)) :
    HostRow sel (argsBytes sel args k) := by
  unfold Sys2Proof.argsBytes
  split
  · exact .unassigned _ _
  · split
    · exact h _ _
    · exact .unassigned _ _

/-- One row of the selector table, then the rows after it. -/
theorem HostRow.ite {c : Byte} {i j : Instr} (hi : some c = some sel → HostRow sel i) (hj : HostRow sel j) :
    HostRow sel (if sel = c then i else j) := by
  split
  · next h => exact hi (congrArg some h.symm)
  · exact hj

/-- A selector and its arguments decode to an instruction of the selector's row (R59, R145). -/
theorem decodeHost_row (sel : Byte) (args : List Byte) : HostRow sel (decodeHost sel args) :=
  .ite (fun h => .args1 fun _ => ⟨rfl, h⟩) <|
  .ite (fun h => .args1 fun _ => ⟨rfl, h⟩) <|
  .ite (fun h => .args1 fun _ => ⟨rfl, h⟩) <|
  .ite (fun h => .args2 fun _ _ => ⟨rfl, h⟩) <|
  .ite (fun h => .args1 fun _ => ⟨rfl, h⟩) <|
  .ite (fun h => .args2 fun _ _ => ⟨rfl, h⟩) <|
  .ite (fun h => .args2 fun _ _ => ⟨rfl, h⟩) <|
  .ite (fun h => .args4 fun _ _ _ _ => ⟨rfl, h⟩) <|
  .ite (fun h => .args3 fun _ _ _ => ⟨rfl, h⟩) <|
  .ite (fun h => .args2 fun _ _ => ⟨rfl, h⟩) <|
  .ite (fun h => .args6 fun _ _ => ⟨rfl, h⟩) <|
  .ite (fun h => .args2 fun _ _ => ⟨rfl, h⟩) <|
  .ite (fun h => .args1 fun _ => ⟨rfl, h⟩) <|
  .ite (fun h => .argsBytes fun _ _ => ⟨rfl, h⟩) <|
  .ite (fun h => .args1 fun _ => ⟨rfl, h⟩) <|
  .ite (fun h => .args0 ⟨rfl, h⟩) <|
  .ite (fun h => .args0 ⟨rfl, h⟩) <|
  .ite (fun h => .args0 ⟨rfl, h⟩) <|
  .ite (fun h => .args1 fun _ => ⟨rfl, h⟩) <|
  .ite (fun h => .args0 ⟨rfl, h⟩) <|
  .ite (fun h => .args0 ⟨rfl, h⟩) <|
  .ite (fun h => .args0 ⟨rfl, h⟩) (.unassigned _ _)

/-- Every selector decodes to a host operation. -/
theorem decodeHost_port (sel : Byte) (args : List Byte) : (decodeHost sel args).port = .host := (decodeHost_row sel args).1

/-- Only selector 0x0C decodes to CLEAR_STATUS (R59). -/
theorem selector_of_clearStatus {mask : Half} (h : decodeHost sel args = .clearStatus mask) : sel = 0x0C#8 := by
  have hrow := (decodeHost_row sel args).2
  rw [h] at hrow
  exact (Option.some.inj hrow).symm

end Sys2Proof

/-! ### The lengths of decoded broadcasts -/

namespace Sys2Proof

/-- What holds of every element, and of a new one in its zone, holds of every element after the write. -/
theorem Zones.forall_set {α : Type} {P : Zone → α → Prop} {v : Zones α} {z : Zone} {x : α}
    (hv : ∀ z', P z' (v.get z')) (hx : P z x) (z' : Zone) : P z' ((v.set z x).get z') := by
  rw [Zones.get_set]
  split
  · next he => exact he ▸ hx
  · exact hv z'

/-- A StateMessage has 23 bytes and a StateMessage2 18 (R10, R27). -/
def Frame.Sized : Frame → Prop
  | .stateMessage bytes => bytes.length = 23
  | .stateMessage2 bytes => bytes.length = 18
  | _ => True

/-- The same of a row of the classifier, before any frame is built from it (R10). -/
def ClassRule.Sized (r : ClassRule) : Prop :=
  (r.kind = .bcast .stateMessage → r.length = 23) ∧ (r.kind = .bcast .stateMessage2 → r.length = 18)

/-- The row of a valid broadcast rule has its type's length (R10). -/
theorem BcastRule.valid_sized {r : BcastRule} (h : r.valid = true) :
    ClassRule.Sized ⟨r.mask, r.value, .bcast r.type, r.length⟩ := by
  unfold BcastRule.valid at h
  cases ht : r.type <;> simp_all [ClassRule.Sized]

/-- With valid broadcast rules every row of the classifier has its type's length (R80). -/
theorem classRules_sized {rules : List BcastRule} (h : rules.all BcastRule.valid = true) :
    ∀ r ∈ classRules rules, r.Sized := by
  intro r hr
  simp only [classRules, List.mem_append, List.mem_map] at hr
  rcases hr with (hr | ⟨b, hb, rfl⟩) | hr
  · simp only [commandRules, List.mem_cons, List.not_mem_nil, or_false] at hr
    rcases hr with rfl | rfl | rfl | rfl | rfl <;> simp [ClassRule.Sized]
  · exact BcastRule.valid_sized (List.all_eq_true.mp h b hb)
  · simp only [zoneRules, List.mem_cons, List.not_mem_nil, or_false] at hr
    rcases hr with rfl | rfl <;> simp [ClassRule.Sized]

/-- A frame built by a row of its type's length is sized. -/
theorem buildFrame_sized {r : ClassRule} {b : List Byte} (hr : r.Sized) (hl : b.length = r.length) :
    (buildFrame r.kind b).Sized := by
  obtain ⟨hsm, hsm2⟩ := hr
  cases hk : r.kind with
  | bcast ty =>
    cases ty with
    | stateMessage => exact hl.trans (hsm hk)
    | stateMessage2 => exact hl.trans (hsm2 hk)
    | broadcast k => trivial
  | _ =>
    unfold buildFrame
    split <;> trivial

/-- Under valid broadcast rules every decoded frame is sized: the length is checked before the frame is built (R80, R83). -/
theorem decodeFrame_sized {rules : List BcastRule} (h : rules.all BcastRule.valid = true) (b : List Byte) :
    (decodeFrame rules b).Sized := by
  unfold decodeFrame
  split
  · trivial
  · split
    · trivial
    · next r hr =>
      split
      · next hl => exact buildFrame_sized (classRules_sized h r (List.mem_of_find?_eq_some hr)) hl
      · trivial

end Sys2Proof

/-! ### The invariant, one operation at a time -/

namespace Sys2Proof.Machine

/-- A clamped setpoint is in the range of the intents (R78, R128). -/
theorem clampSp_inRange (x : Int) : InSetpointRange (BitVec.ofInt 8 (clampSp x)) := by
  have hlo : 32 ≤ clampSp x := le_max_left _ _
  have hhi : clampSp x ≤ 60 := max_le (by decide) (min_le_right _ _)
  simp only [InSetpointRange, BitVec.toNat_ofInt]
  omega

/-- The reserved bits of a generated fan-mode byte are 0 (R49). -/
theorem fanByteReserved_fanByte (c : Bool) (speed : BitVec 2) : fanByteReserved (fanByte c speed) = 0 := by
  revert c speed
  decide

/-- Valid parameters have valid broadcast rules. -/
theorem Params.valid_rules {p : Params} (h : p.valid = true) : p.bcastRules.all BcastRule.valid = true := by
  unfold Params.valid at h
  simp only [Bool.and_eq_true] at h
  obtain ⟨⟨-, hrules⟩, -⟩ := h
  exact hrules

/-- The frame a slot generates has at most seven bytes (R50, R54). -/
theorem slotFrame_length_le (s : State) (k : SlotId) : (slotFrame s k).length ≤ 7 := by
  cases k <;> simp [slotFrame, genOperatingMode, genZoneState, genFanMode, genMasterSetpoint, genCustomZoneSetpoint,
    genMtz, packMtzBits, packMtzPayload]

/-- The state after reset meets the invariant (R160), whatever events are still to come. -/
theorem Inv.resetWith {p : Params} (h : p.valid = true) (inputs : List Event) :
    Inv { State.resetWith p with inputs := inputs } where
  params := h
  bufWf := rfl
  bufBelow := rfl
  lenLe := Nat.zero_le _
  txBufWf := rfl
  txBufBelow := rfl
  txLenLe := Nat.zero_le _
  deBusy := nofun
  deHas := nofun
  statusReserved := by simp [State.resetWith]
  configReserved := by simp [State.resetWith]
  opModeCode := Nat.zero_le _
  fanReserved := fanByteReserved_fanByte false 0
  masterRange := nofun
  customZone := nofun
  customRange := nofun
  mtzSlotZone z hz := by simp [State.resetWith] at hz
  zwZone z hz := by simp [State.resetWith] at hz
  mtzZone z hz := by simp [State.resetWith] at hz
  owedControlled z hz := by simp [State.resetWith] at hz
  owedTemp z hz := by simp [State.resetWith] at hz
  owedPoll z hz := by simp [State.resetWith] at hz
  smLength := rfl
  sm2Length := rfl
  eosFinal := nofun
  desiredRange z hz := by simp [State.resetWith] at hz
  attemptKind := rfl
  windowAttempt := nofun

namespace Inv

variable {s : State}

/-- What an event sets before it acts is outside the invariant. -/
theorem present (h : Inv s) (inputs : List Event) (out : Outputs) (now : Word) :
    Inv { s with inputs := inputs, out := out, now := now } := { h with }

theorem answer (h : Inv s) (r : HostResult) : Inv (answer r s) := { h with }

/-- The event codes are below 11, so an event leaves the reserved STATUS bits 0 (R29, R150). -/
theorem raise (h : Inv s) (k : EventCode) : Inv (raiseEvent k s) :=
  { h with
    statusReserved := by
      have hbit : (1#16 <<< eventCode k) &&& 0xF800#16 = 0 := by cases k <;> decide
      rw [raiseEvent_status, BitVec.and_or_distrib_right, h.statusReserved, hbit]
      rfl }

/-! #### Received frames -/

theorem refresh (h : Inv s) : Inv (refreshLiveness s) := { h with }

theorem count (h : Inv s) : Inv (countFrame s) := { h with }

/-- Only the final type sets the end-of-sequence flag (R107). -/
theorem final (h : Inv s) (ty : BcastType) : Inv (markFinal ty s) := by
  unfold markFinal
  split
  · next hty => exact { h with eosFinal := fun _ hnone => by cases hnone.symm.trans hty }
  · exact h

theorem latchSm (h : Inv s) {bytes : List Byte} (hl : bytes.length = 23) : Inv (latchSm bytes s) :=
  { h with smLength := hl }

theorem latchSm2 (h : Inv s) {bytes : List Byte} (hl : bytes.length = 18) : Inv (latchSm2 bytes s) :=
  { h with sm2Length := hl }

theorem latchWall (h : Inv s) {z : Zone} {r : WallFields} (hz : r.zone.toNat = z.number) : Inv (latchWall z r s) :=
  { h with
    zwZone := Zones.forall_set (P := fun z (l : Latch WallFields) => l.valid = true → l.value.zone.toNat = z.number)
      h.zwZone fun _ => hz }

/-- A zone that owes a response after a poll owed one before, or is the polled zone, controlled and with a temperature (R100). -/
theorem owed_latchMtz {z z' : Zone} {r : MtzFields} (ho : (Machine.latchMtz z r s).respPending.get z' = true) :
    s.respPending.get z' = true ∨
      z' = z ∧ s.emu.controlled.get z' = true ∧ s.emu.emuTempValid.get z' = true := by
  rw [latchMtz_respPending] at ho
  split at ho
  · next hc =>
    rw [Zones.get_set] at ho
    split at ho
    · next he => exact .inr ⟨he, by simpa [he] using hc⟩
    · exact .inl ho
  · exact .inl ho

theorem latchMtz (h : Inv s) {z : Zone} {r : MtzFields} (hz : r.zone.toNat = z.number) : Inv (latchMtz z r s) :=
  { h with
    mtzZone := Zones.forall_set (P := fun z (l : Latch MtzFields) => l.valid = true → l.value.zone.toNat = z.number)
      h.mtzZone fun _ => hz
    owedControlled := fun z' ho => (owed_latchMtz ho).elim (h.owedControlled z') fun ⟨_, hc, _⟩ => hc
    owedTemp := fun z' ho => (owed_latchMtz ho).elim (h.owedTemp z') fun ⟨_, _, hv⟩ => hv
    owedPoll := by
      intro z' ho
      rw [latchMtz_latches, Zones.get_set]
      split
      · rfl
      · next hne => exact (owed_latchMtz ho).elim (h.owedPoll z') fun ⟨he, _⟩ => absurd he hne }

theorem frameAct {f : Frame} {t : State} (h : Inv s) (hf : f.Sized) (ha : FrameAct f s t) : Inv t := by
  cases ha with
  | raise k => exact h.raise k
  | refresh => exact h.refresh
  | count => exact h.count
  | final ty => exact h.final ty
  | latchSm hm => subst hm; exact h.latchSm hf
  | latchSm2 hm => subst hm; exact h.latchSm2 hf
  | latchWall hz => exact h.latchWall hz
  | latchMtz hz => exact h.latchMtz hz

/-- A completed frame, of a peer or an echo, keeps the invariant (R81). -/
theorem processFrame (h : Inv s) (bytes : List Byte) (echo : Bool) : Inv (processFrame bytes echo s) := by
  unfold Machine.processFrame
  split
  · exact h.raise _
  · exact applyFrame_preserves (fun _ _ ha hu => hu.frameAct (decodeFrame_sized (Params.valid_rules h.params) bytes) ha) h

/-! #### Host operations -/

theorem masterSp (h : Inv s) (x : Int) :
    Inv { s with slots := { s.slots with masterSp := enqueue (BitVec.ofInt 8 (clampSp x)) } } :=
  { h with masterRange := fun _ => clampSp_inRange x }

/-- The desired setpoint is clamped, and so is the queued one of an uncontrolled zone (R130). -/
theorem storeDesired (h : Inv s) (z : Zone) (x : Int) : Inv (storeDesired z (clampSp x) s) :=
  { h with
    customZone := by
      unfold Machine.storeDesired
      split
      · exact h.customZone
      · exact fun _ => ⟨z, Zone.toNat_number4 z⟩
    customRange := by
      unfold Machine.storeDesired
      split
      · exact h.customRange
      · exact fun _ => clampSp_inRange x
    desiredRange := by
      intro z' hv
      simp only [Machine.storeDesired, Zones.get_set] at hv ⊢
      by_cases he : z' = z
      · rw [if_pos he]; exact clampSp_inRange x
      · rw [if_neg he] at hv ⊢; exact h.desiredRange z' hv }

theorem temperature (h : Inv s) (z : Zone) (d : Half) : Inv { s with emu := { s.emu with
      emuTemp := s.emu.emuTemp.set z d
      emuTempValid := s.emu.emuTempValid.set z true } } :=
  { h with
    owedTemp := Zones.forall_set (P := fun z v => s.respPending.get z = true → v = true) h.owedTemp fun _ => rfl }

/-- A response that is no longer owed asks for nothing. -/
theorem cancelOwed (h : Inv s) (z : Zone) : Inv { s with respPending := s.respPending.set z false } := by
  have howed : ∀ z', (s.respPending.set z false).get z' = true → s.respPending.get z' = true := by
    intro z' ho
    rw [Zones.get_set] at ho
    split at ho
    · cases ho
    · exact ho
  exact { h with
    owedControlled := fun z' ho => h.owedControlled z' (howed z' ho)
    owedTemp := fun z' ho => h.owedTemp z' (howed z' ho)
    owedPoll := fun z' ho => h.owedPoll z' (howed z' ho) }

/-- A zone given up owes no response any more (R132, R171). -/
theorem control (h : Inv s) (z : Zone) (en : Bool) : Inv { s with
      emu := { s.emu with controlled := s.emu.controlled.set z en }
      respPending := if en then s.respPending else s.respPending.set z false } := by
  cases en with
  | true =>
    exact { h with
      owedControlled :=
        Zones.forall_set (P := fun z v => s.respPending.get z = true → v = true) h.owedControlled fun _ => rfl }
  | false =>
    exact { h.cancelOwed z with
      owedControlled := by
        intro z' ho
        by_cases he : z' = z
        · simp [he] at ho
        · simpa [Zones.get_set_ne _ _ he] using (h.cancelOwed z).owedControlled z' ho }

theorem override (h : Inv s) (z : Zone) (f : MtzBits) : Inv { s with slots := { s.slots with
      mtz := s.slots.mtz.set z (enqueue (mtzRecord (BitVec.ofNat 4 z.number) f true)) } } :=
  { h with
    mtzSlotZone := Zones.forall_set
      (P := fun z (x : Slot MtzFields) => x.pending = true → x.value.zone.toNat = z.number) h.mtzSlotZone
      fun _ => Zone.toNat_number4 z }

/-- CLEAR_STATUS leaves bits 15:11 at 0 (R29, R134). -/
theorem clearStatus (h : Inv s) (mask : Half) :
    Inv { s with regs := { s.regs with status := s.regs.status &&& ~~~mask &&& 0x07FF#16 } } :=
  { h with
    statusReserved := by
      have hdisjoint : (0x07FF#16 &&& 0xF800#16) = 0 := by decide
      rw [BitVec.and_assoc, hdisjoint]
      simp }

/-- WRITE_CONFIG leaves bits 7:1 at 0 (R30, R135). -/
theorem writeConfig (h : Inv s) (v : Byte) : Inv { s with regs := { s.regs with config := v &&& 0x01#8 } } :=
  { h with
    configReserved := by
      have hdisjoint : (0x01#8 &&& 0xFE#8) = 0 := by decide
      rw [BitVec.and_assoc, hdisjoint]
      simp }

theorem hostEffect {i : Instr} {t : State} (h : Inv s) (he : HostEffect i s t) : Inv t := by
  cases he with
  | raised k => exact h.raise k
  | answered r => exact h.answer r
  | answeredRaised r k => exact (h.raise k).answer r
  | opMode hm => exact { h with opModeCode := hm }
  | zoneState m => exact { h with }
  | fanMode c speed => exact { h with fanReserved := fanByteReserved_fanByte c speed }
  | masterSp x => exact h.masterSp x
  | desired z x => exact h.storeDesired z x
  | shifted z x y => exact (h.masterSp y).storeDesired z x
  | temperature z d => exact h.temperature z d
  | control z en => exact h.control z en
  | override z f => exact h.override z f
  | cleared _ => exact h.clearStatus _
  | configured v => exact h.writeConfig v
  | processed bytes => exact h.processFrame bytes false

/-! #### The transmitter -/

/-- A frame of at most seven bytes is handed to the UART (R116). -/
theorem txStart (h : Inv s) {bytes : List Byte} (hb : bytes.length ≤ 7) : Inv (txStart bytes s) :=
  { h with
    txBufWf := memoryWf_writeAll h.txBufWf 0 bytes
    txBufBelow := memoryBelow_writeAll h.txBufBelow (by simp only [Config.txCap]; omega)
    txLenLe := hb
    deBusy := fun _ => rfl
    deHas := id }

/-- A slot that is no longer pending keeps its value (R114). -/
theorem clearPending (h : Inv s) (k : SlotId) : Inv { s with slots := clearPending s.slots k } := by
  cases k with
  | opMode => exact { h with }
  | zoneState => exact { h with }
  | fanMode => exact { h with }
  | masterSp => exact { h with masterRange := nofun }
  | customSp => exact { h with customZone := nofun, customRange := nofun }
  | mtz z =>
    exact { h with
      mtzSlotZone := Zones.forall_set (P := fun z (x : Slot MtzFields) => x.pending = true → x.value.zone.toNat = z.number)
        h.mtzSlotZone nofun }

/-- A drain's times record the attempt, of one kind, that uses the window (R114). -/
theorem stampDrain (h : Inv s) (k : SlotId) (now : Word) : Inv { s with timing := stampDrain k now s.timing } := by
  cases k with
  | mtz z => exact { h with eosFinal := nofun, attemptKind := (Bool.or_true _).symm, windowAttempt := fun _ => rfl }
  | _ => exact { h with eosFinal := nofun, attemptKind := rfl, windowAttempt := fun _ => rfl }

theorem drain (h : Inv s) (k : SlotId) : Inv (drain k s) :=
  ((h.clearPending k).txStart (slotFrame_length_le s k)).stampDrain k s.now

theorem sendResponse (h : Inv s) (z : Zone) : Inv (sendResponse z s) :=
  (h.cancelOwed z).txStart (by simp [genWall, packWallBits])

/-- What a tick sends keeps the invariant (R105). -/
theorem tickSend (h : Inv s) : Inv (tickSend s) := by
  rcases tickSend_cases s with he | ⟨-, -, z, -, he⟩ | ⟨-, -, -, -, k, -, he⟩ <;> rw [he]
  · exact h
  · exact h.sendResponse z
  · exact h.drain k

theorem txComplete (h : Inv s) (time : Word) : Inv (txComplete time s) := by
  unfold Machine.txComplete
  split
  · exact { h with deBusy := nofun, deHas := nofun }
  · exact h

/-! #### The framer -/

theorem emptyFrame (h : Inv s) : Inv { s with framer := { s.framer with len := 0, echoAcc := false } } :=
  { h with lenLe := Nat.zero_le _ }

theorem closeIfSilent {t : State} (h : Inv s) (hc : closeIfSilent s = .next t) : Inv t := by
  rcases closeIfSilent_cases h.lenLe hc with ⟨-, rfl⟩ | ⟨-, rfl⟩
  · exact h
  · exact h.emptyFrame.processFrame _ _

/-- A byte leaves the window as it is or opens a new one, which no attempt has used (R63). -/
theorem noteByte (h : Inv s) : Inv (noteByte s) :=
  { h with
    eosFinal := by
      intro he
      rw [noteByte_eosFlag] at he
      split at he
      · exact h.eosFinal he
      · cases he
    windowAttempt := by
      intro hw
      rw [noteByte_windowUsed] at hw
      split at hw
      · exact h.windowAttempt hw
      · cases hw }

theorem storeByte {t : State} {b : Byte} (h : Inv s) (hs : storeByte b s = .next t) : Inv t := by
  rcases storeByte_cases h.lenLe hs with ⟨-, rfl⟩ | ⟨hlt, rfl⟩
  · exact h.emptyFrame.raise _
  · exact { h with
      bufWf := memoryWf_write h.bufWf _ b
      bufBelow := memoryBelow_write h.bufBelow hlt b
      lenLe := hlt }

/-! #### Events -/

/-- Every event keeps the invariant (R15). -/
theorem applyEvent {e : Event} {t : State} (h : Inv s) (he : applyEvent e s = .next t) : Inv t := by
  cases e with
  | rxByte time b =>
    obtain ⟨mid, hm, ht⟩ := rxByte_cases he
    exact ((h.present s.inputs s.out time).closeIfSilent hm).noteByte.storeByte ht
  | tick time =>
    obtain ⟨mid, hm, rfl⟩ := tick_cases he
    exact ((h.present s.inputs s.out time).closeIfSilent hm).tickSend
  | txComplete time => cases he; exact h.txComplete time
  | host time sel args =>
    exact (h.present s.inputs s.out time).hostEffect (exec_host_effect (decodeHost_port sel args) he)
  | reset => cases he; exact resetWith h.params s.inputs

end Inv

/-- Settles O58: every event keeps each field of the invariant, operation by operation. -/
theorem stepKeepsTheInvariant : Obligations.StepKeepsTheInvariant := by
  intro s t h hs
  rcases step_cases hs with ⟨-, rfl⟩ | ⟨e, rest, -, he⟩
  · exact h
  · exact (h.present rest ⟨false, .none⟩ s.now).applyEvent he

end Sys2Proof.Machine

/-! ### STATUS bits stay set -/

namespace Sys2Proof.Machine

/-- Bit `n` of STATUS is 1. -/
def StatusSet (n : Nat) (s : State) : Prop := s.regs.status.getLsbD n = true

variable {n : Nat} {s t : State}

/-- An event sets its own bit and keeps the others (R150). -/
theorem StatusSet.raise (h : StatusSet n s) (k : EventCode) : StatusSet n (raiseEvent k s) := by
  unfold StatusSet at h ⊢
  rw [raiseEvent_status, BitVec.getLsbD_or, h, Bool.true_or]

theorem StatusSet.of_regs (h : StatusSet n s) (ht : t.regs = s.regs) : StatusSet n t := by
  unfold StatusSet at h ⊢
  rw [ht]
  exact h

theorem StatusSet.frameAct {f : Frame} (h : StatusSet n s) (ha : FrameAct f s t) : StatusSet n t := by
  cases ha with
  | raise k => exact h.raise k
  | final ty => exact h.of_regs (markFinal_regs s ty)
  | _ => exact h

theorem StatusSet.processFrame (h : StatusSet n s) (bytes : List Byte) (echo : Bool) :
    StatusSet n (processFrame bytes echo s) := by
  unfold Machine.processFrame
  split
  · exact h.raise _
  · exact applyFrame_preserves (fun _ _ ha hu => hu.frameAct ha) h

/-- CLEAR_STATUS alone clears a bit (R29). -/
theorem StatusSet.hostEffect {i : Instr} (h : StatusSet n s) (hi : ∀ mask, i ≠ .clearStatus mask)
    (he : HostEffect i s t) : StatusSet n t := by
  cases he with
  | raised k => exact h.raise k
  | answeredRaised r k => exact h.raise k
  | processed bytes => exact h.processFrame bytes false
  | cleared hm => exact absurd hm (hi _)
  | _ => exact h

/-- The framer's part of an event does nothing, or processes some bytes with the buffer emptied, whatever the fill level
(R61, R65). -/
theorem closeIfSilent_result (h : closeIfSilent s = .next t) :
    t = s ∨ ∃ bytes, t = processFrame bytes s.framer.echoAcc
      { s with framer := { s.framer with len := 0, echoAcc := false } } := by
  unfold closeIfSilent completeFrame at h
  split at h
  · split at h
    · cases h
    · next bytes _ => cases h; exact .inr ⟨bytes, rfl⟩
  · cases h; exact .inl rfl

theorem StatusSet.closeIfSilent (h : StatusSet n s) (hc : closeIfSilent s = .next t) : StatusSet n t := by
  rcases closeIfSilent_result hc with rfl | ⟨bytes, rfl⟩
  · exact h
  · have hempty : StatusSet n { s with framer := { s.framer with len := 0, echoAcc := false } } := h
    exact hempty.processFrame bytes _

/-- A byte is stored only where the buffer has an address (R35). -/
theorem storeByte_len_le {b : Byte} (h : storeByte b s = .next t) : s.framer.len ≤ s.params.frameCap := by
  by_contra hgt
  have hne : s.framer.len ≠ s.params.frameCap := by omega
  have hnone : memWrite s s.framer.len b = none := by rw [memWrite, if_neg (by omega)]
  rw [storeByte, if_neg hne, hnone] at h
  cases h

theorem StatusSet.storeByte {b : Byte} (h : StatusSet n s) (hs : storeByte b s = .next t) : StatusSet n t := by
  rcases storeByte_cases (storeByte_len_le hs) hs with ⟨-, rfl⟩ | ⟨-, rfl⟩
  · have hempty : StatusSet n { s with framer := { s.framer with len := 0, echoAcc := false } } := h
    exact hempty.raise _
  · exact h

/-- Sending touches no register (R105). -/
theorem tickSend_regs (s : State) : (tickSend s).regs = s.regs := by
  rcases tickSend_cases s with he | ⟨-, -, z, -, he⟩ | ⟨-, -, -, -, k, -, he⟩ <;> rw [he]
  · exact sendResponse_regs s z
  · exact drain_regs s k

theorem txComplete_regs (time : Word) (s : State) : (txComplete time s).regs = s.regs := by
  unfold txComplete
  split <;> rfl

/-- Every event but a host's selector 0x0C and a reset keeps a set STATUS bit. -/
theorem StatusSet.applyEvent {e : Event} (h : StatusSet n s) (hclear : ∀ time args, e ≠ .host time 0x0C args)
    (hreset : e ≠ .reset) (he : applyEvent e s = .next t) : StatusSet n t := by
  have hnow : ∀ time, StatusSet n { s with now := time } := fun _ => h
  cases e with
  | rxByte time b =>
    obtain ⟨mid, hm, ht⟩ := rxByte_cases he
    have hmid : StatusSet n mid := (hnow time).closeIfSilent hm
    exact (hmid.of_regs (noteByte_regs mid)).storeByte ht
  | tick time =>
    obtain ⟨mid, hm, rfl⟩ := tick_cases he
    have hmid : StatusSet n mid := (hnow time).closeIfSilent hm
    exact hmid.of_regs (tickSend_regs mid)
  | txComplete time => cases he; exact h.of_regs (txComplete_regs time s)
  | host time sel args =>
    have hi : ∀ mask, decodeHost sel args ≠ .clearStatus mask := fun mask hd =>
      hclear time args (by rw [selector_of_clearStatus hd]; rfl)
    exact (hnow time).hostEffect hi (exec_host_effect (decodeHost_port sel args) he)
  | reset => exact absurd rfl hreset

/-- Settles O18: of all effects of an event only CLEAR_STATUS clears a bit, and only selector 0x0C decodes to it. -/
theorem statusBitsAreSticky : Obligations.StatusBitsAreSticky := by
  intro s t n hs hn hclear hreset
  rcases step_cases hs with ⟨-, rfl⟩ | ⟨e, rest, hi, he⟩
  · exact hn
  · have hset : StatusSet n { s with inputs := rest, out := ⟨false, .none⟩ } := hn
    exact hset.applyEvent (fun time args h => hclear time args rest (h ▸ hi)) (fun h => hreset rest (h ▸ hi)) he

end Sys2Proof.Machine

/-! ### The framer, by what it finds -/

namespace Sys2Proof.Machine

variable {s : State}

theorem silent_eq (s : State) : silent s = decide (5 ≤ (s.now - s.framer.tLast).toNat) := rfl

/-- No frame, or one not timed out: nothing to complete (R61). -/
theorem closeIfSilent_idle (h : s.framer.len = 0 ∨ (s.now - s.framer.tLast).toNat < 5) : closeIfSilent s = .next s := by
  unfold closeIfSilent
  rw [if_neg]
  simp only [silent_eq, Bool.and_eq_true, decide_eq_true_eq]
  omega

/-- A frame that timed out is processed with the buffer emptied (R61, R65). -/
theorem closeIfSilent_timedOut (hlen : 0 < s.framer.len) (hcap : s.framer.len ≤ s.params.frameCap)
    (hsil : 5 ≤ (s.now - s.framer.tLast).toNat) :
    closeIfSilent s = .next (processFrame ((List.range s.framer.len).map (memoryRead s.framer.buf)) s.framer.echoAcc
      { s with framer := { s.framer with len := 0, echoAcc := false } }) := by
  rw [closeIfSilent, completeFrame, frameBytes_eq hcap, if_pos]
  rw [silent_eq, decide_eq_true hlen, decide_eq_true hsil]
  rfl

/-- An echo frame raises ECHO_FRAME and nothing else (R67, R81). -/
theorem closeIfSilent_echo (hlen : 0 < s.framer.len) (hcap : s.framer.len ≤ s.params.frameCap)
    (hsil : 5 ≤ (s.now - s.framer.tLast).toNat) (hecho : s.framer.echoAcc = true) :
    closeIfSilent s =
      .next (raiseEvent .echoFrame { s with framer := { s.framer with len := 0, echoAcc := false } }) := by
  rw [closeIfSilent_timedOut hlen hcap hsil, hecho, processFrame, if_pos rfl]

/-- A peer's frame runs the instruction it decodes to (R81). -/
theorem closeIfSilent_peer (hlen : 0 < s.framer.len) (hcap : s.framer.len ≤ s.params.frameCap)
    (hsil : 5 ≤ (s.now - s.framer.tLast).toNat) (hecho : s.framer.echoAcc = false) :
    closeIfSilent s =
      exec (decodeFrame s.params.bcastRules ((List.range s.framer.len).map (memoryRead s.framer.buf))).toInstr
        { s with framer := { s.framer with len := 0, echoAcc := false } } := by
  rw [closeIfSilent_timedOut hlen hcap hsil, hecho]
  exact (processFrame_peer _ { s with framer := { s.framer with len := 0, echoAcc := false } }).symm

/-- A byte that finds room joins the frame (R63). -/
theorem storeByte_room (b : Byte) (h : s.framer.len < s.params.frameCap) :
    storeByte b s = .next { s with framer :=
      { buf := memoryWrite s.framer.buf s.framer.len b
        len := s.framer.len + 1
        tLast := s.now
        echoAcc := if s.framer.len = 0 then isEchoByte s else s.framer.echoAcc || isEchoByte s } } := by
  have hne : s.framer.len ≠ s.params.frameCap := by omega
  rw [storeByte, if_neg hne, memWrite, if_pos h]

/-- Noting a byte leaves what decides its echo mark (R67). -/
theorem isEchoByte_noteByte (s : State) : isEchoByte (noteByte s) = isEchoByte s := rfl

/-- When a byte is an echo (R67). -/
theorem isEchoByte_iff (s : State) : isEchoByte s = true ↔
    s.tx.txBusy = true ∨ s.timing.txEndSeen = true ∧ (s.now - s.timing.tTxEnd).toNat < s.params.tEcho := by
  simp [isEchoByte]

/-- The state an event at time `time` acts on: the event taken from the inputs, the outputs cleared (R15, R20). -/
def presented (s : State) (time : Word) (rest : List Event) : State :=
  { s with inputs := rest, now := time, out := ⟨false, .none⟩ }

variable {time : Word} {rest : List Event} {mid : State}

/-- A tick is the framer's part, then what the tick sends (R105). -/
theorem step_tick (hi : s.inputs = .tick time :: rest) (hc : closeIfSilent (presented s time rest) = .next mid) :
    step s = .next (tickSend mid) := by
  rw [step_event hi]
  show andThen (closeIfSilent (presented s time rest)) _ = _
  rw [hc, andThen_next]

/-- A byte is the framer's part, then the byte is noted and stored (R63). -/
theorem step_rxByte {b : Byte} (hi : s.inputs = .rxByte time b :: rest)
    (hc : closeIfSilent (presented s time rest) = .next mid) : step s = storeByte b (noteByte mid) := by
  rw [step_event hi]
  show andThen (closeIfSilent (presented s time rest)) _ = _
  rw [hc, andThen_next]

/-- Settles O45: the framer leaves the frame in progress, the byte is noted, and then stored where there is room. -/
theorem rxByteIsStored : Obligations.RxByteIsStored := by
  intro s t b rest echo hi hroom hidle hecho
  have hmark : isEchoByte (presented s t rest) = echo := Bool.eq_iff_iff.mpr ((isEchoByte_iff _).trans hecho.symm)
  rw [step_rxByte hi (closeIfSilent_idle (s := presented s t rest) hidle),
    storeByte_room (s := noteByte (presented s t rest)) b hroom, isEchoByte_noteByte, hmark, noteByte, hmark]
  rcases Nat.eq_zero_or_pos s.framer.len with hlen | hlen
  · cases echo <;> simp [presented, hlen]
  · cases echo <;> simp [presented, hlen, hlen.ne']

/-- Settles O44: a host event is `exec` by definition; a tick or a byte is the framer's part, by what it finds, and then its
own. -/
theorem stepRunsTheDecodedInstruction : Obligations.StepRunsTheDecodedInstruction := by
  refine ⟨?host, ?tickPeer, ?bytePeer, ?tickIdle, ?tickEcho, ?byteEcho⟩
  case host =>
    rintro s t sel args rest i hi rfl
    rw [step_event hi]
    rfl
  case tickPeer =>
    rintro s s' t rest bytes i hi hlen hcap hsil hecho rfl rfl hexec
    exact step_tick hi ((closeIfSilent_peer (s := presented s t rest) hlen hcap hsil hecho).trans hexec)
  case bytePeer =>
    rintro s s' t b rest bytes i hi hlen hcap hsil hecho rfl rfl hexec
    exact step_rxByte hi ((closeIfSilent_peer (s := presented s t rest) hlen hcap hsil hecho).trans hexec)
  case tickIdle =>
    intro s t rest hi hidle
    exact step_tick hi (closeIfSilent_idle (s := presented s t rest) hidle)
  case tickEcho =>
    intro s t rest hi hlen hcap hsil hecho
    exact step_tick hi (closeIfSilent_echo (s := presented s t rest) hlen hcap hsil hecho)
  case byteEcho =>
    intro s t b rest hi hlen hcap hsil hecho
    exact step_rxByte hi (closeIfSilent_echo (s := presented s t rest) hlen hcap hsil hecho)

end Sys2Proof.Machine

/-! ### The registers of the status map -/

namespace Sys2Proof.Machine

variable (s : State)

/-- A flag is one bit of a register (R31). -/
theorem flagBit_getLsbD {n : Nat} (hn : n < 32) (b : Bool) (i : Nat) :
    (flagBit n b).getLsbD i = (b && decide (i = n)) := by
  cases b
  · simp [flagBit]
  · rw [flagBit, if_pos rfl, BitVec.getLsbD_shiftLeft, BitVec.getLsbD_one]
    by_cases hi : i = n
    · simp [hi, hn]
    · simp [hi]
      omega

/-- Flags gathered one zone after the other, each at its own bit: a bit is set if it was, or if some zone sets it (R31). -/
theorem foldl_flagBit_getLsbD (pos : Zone → Nat) (hpos : ∀ z, pos z < 32) (f : Zone → Bool) (zs : List Zone) (w : Word)
    (i : Nat) : (zs.foldl (fun acc z => acc ||| flagBit (pos z) (f z)) w).getLsbD i =
      (w.getLsbD i || zs.any (fun z => f z && decide (i = pos z))) := by
  induction zs generalizing w with
  | nil => simp
  | cons z zs ih => rw [List.foldl_cons, ih, BitVec.getLsbD_or, flagBit_getLsbD (hpos z), List.any_cons, Bool.or_assoc]

/-- Where the zones have different bits, the bit of a zone is its flag. -/
theorem any_zone_bit {pos : Zone → Nat} (hinj : ∀ z z', pos z = pos z' → z = z') (f : Zone → Bool) (z : Zone) :
    Zone.all.any (fun z' => f z' && decide (pos z = pos z')) = f z := by
  rw [Bool.eq_iff_iff, List.any_eq_true]
  constructor
  · rintro ⟨z', -, hz'⟩
    simp only [Bool.and_eq_true, decide_eq_true_eq] at hz'
    exact hinj z z' hz'.2 ▸ hz'.1
  · intro hz
    exact ⟨z, z.mem_all, by simp [hz]⟩

/-- A bit that no zone has is not set by any. -/
theorem any_zone_bit_none {pos : Zone → Nat} {i : Nat} (hi : ∀ z, i ≠ pos z) (f : Zone → Bool) :
    Zone.all.any (fun z => f z && decide (i = pos z)) = false := by
  simp [hi]

/-- Eight zone flags: zone z is bit z-1 (R31). -/
theorem zoneFlags_getLsbD (v : Zones Bool) (i : Nat) :
    (zoneFlags v).getLsbD i = Zone.all.any (fun z => v.get z && decide (i = z.number - 1)) := by
  have hpos : ∀ z : Zone, z.number - 1 < 32 := fun z => by have := z.number_le; omega
  rw [zoneFlags, foldl_flagBit_getLsbD _ hpos]
  simp

theorem zoneFlags_zone (v : Zones Bool) (z : Zone) : (zoneFlags v).getLsbD (z.number - 1) = v.get z := by
  rw [zoneFlags_getLsbD]
  refine any_zone_bit (pos := fun z => z.number - 1) (fun z z' h => Zone.number_inj ?_) v.get z
  have := z.number_pos
  have := z'.number_pos
  omega

theorem zoneFlags_high (v : Zones Bool) {i : Nat} (hi : 8 ≤ i) : (zoneFlags v).getLsbD i = false := by
  rw [zoneFlags_getLsbD]
  refine any_zone_bit_none (pos := fun z => z.number - 1) (fun z => ?_) v.get
  have := z.number_le
  omega

/-- PENDING, bit by bit: the five command slots, then the zone slots from bit 8 on (R31). -/
theorem regPending_getLsbD (i : Nat) : (regPending s).getLsbD i =
    (s.slots.opMode.pending && decide (i = 0) || s.slots.zoneState.pending && decide (i = 1)
      || s.slots.fanMode.pending && decide (i = 2) || s.slots.masterSp.pending && decide (i = 3)
      || s.slots.customSp.pending && decide (i = 4)
      || Zone.all.any (fun z => (s.slots.mtz.get z).pending && decide (i = 7 + z.number))) := by
  have hpos : ∀ z : Zone, 7 + z.number < 32 := fun z => by have := z.number_le; omega
  simp only [regPending, BitVec.getLsbD_or, foldl_flagBit_getLsbD _ hpos]
  simp [flagBit_getLsbD]

/-- The zone slots have no bit below 8 or above 15. -/
theorem regPending_zones_none {i : Nat} (hi : i < 8 ∨ 16 ≤ i) :
    Zone.all.any (fun z => (s.slots.mtz.get z).pending && decide (i = 7 + z.number)) = false := by
  refine any_zone_bit_none (pos := fun z => 7 + z.number) (fun z => ?_) fun z => (s.slots.mtz.get z).pending
  have := z.number_pos
  have := z.number_le
  omega

theorem regPending_zone (z : Zone) : (regPending s).getLsbD (7 + z.number) = (s.slots.mtz.get z).pending := by
  have hinj : ∀ z z' : Zone, 7 + z.number = 7 + z'.number → z = z' := fun z z' h => Zone.number_inj (by omega)
  have h1 := z.number_pos
  rw [regPending_getLsbD, any_zone_bit hinj fun z => (s.slots.mtz.get z).pending]
  have hne : ∀ k < 5, 7 + z.number ≠ k := fun k hk => by omega
  simp [hne]

theorem regPending_unused {i : Nat} (hi : 5 ≤ i ∧ i ≤ 7 ∨ 16 ≤ i) : (regPending s).getLsbD i = false := by
  have hne : ∀ k < 5, i ≠ k := fun k hk => by omega
  rw [regPending_getLsbD, regPending_zones_none s (by omega)]
  simp [hne]

/-- LINK, bit by bit (R31). -/
theorem regLink_getLsbD (i : Nat) : (regLink s).getLsbD i =
    (receivingData s && decide (i = 0) || s.tx.txBusy && decide (i = 1) || s.tx.de && decide (i = 2)
      || s.timing.windowUsed && decide (i = 3) || s.timing.eosFlag && decide (i = 4)
      || debounceActive s && decide (i = 5) || decide (0 < s.framer.len) && decide (i = 6)) := by
  simp [regLink, flagBit_getLsbD]

theorem regLink_unused {i : Nat} (hi : 7 ≤ i) : (regLink s).getLsbD i = false := by
  have hne : ∀ k < 7, i ≠ k := fun k hk => by omega
  rw [regLink_getLsbD]
  simp [hne]

/-- The counters are the registers 0x10 to 0x1A (R31). -/
theorem counterCode_eventCode (k : EventCode) : counterCode (eventCode k) = some k := by cases k <;> rfl

theorem counterCode_eq_none {k : Nat} : counterCode k = none ↔ 10 < k := by
  constructor
  · intro h
    by_contra hk
    interval_cases k <;> cases h
  · intro h
    unfold counterCode
    split
    case h_12 => rfl
    all_goals omega

/-- Which register numbers are unassigned (R144). -/
theorem registerValue_eq_none {n : Byte} :
    registerValue n s = none ↔ n.toNat = 0x07 ∨ 0x09 ≤ n.toNat ∧ n.toNat ≤ 0x0F ∨ 0x1B ≤ n.toNat := by
  unfold registerValue
  split
  case h_9 =>
    split
    · rw [Option.map_eq_none_iff, counterCode_eq_none]
      omega
    · simp only [true_iff, imp_false] at *
      omega
  all_goals simp only [reduceCtorEq, false_iff]; omega

/-- A counter's register (R31). -/
theorem registerValue_counter {n : Byte} {k : EventCode} (h : n.toNat = 0x10 + eventCode k) :
    registerValue n s = some (counterOf s.regs.cnt k) := by
  unfold registerValue
  rw [h]
  cases k <;> rfl

theorem execReadReg_unassigned {n : Byte} (h : registerValue n s = none) :
    execReadReg n s = .next (answer (.register 0) (raiseEvent .badArgument s)) := by rw [execReadReg, h]

theorem execReadReg_assigned {n : Byte} {v : Word} (h : registerValue n s = some v) :
    execReadReg n s = .next (answer (.register v) s) := by rw [execReadReg, h]

/-- Settles O39: an assigned number reads its register, whose bits the lemmas above give, and any other raises the event. -/
theorem readRegFollowsTheMap : Obligations.ReadRegFollowsTheMap := by
  intro n s
  refine ⟨fun h => execReadReg_unassigned s ((registerValue_eq_none s).mpr h), fun hassigned => ?_⟩
  obtain ⟨v, hv⟩ : ∃ v, registerValue n s = some v := by
    rw [← Option.ne_none_iff_exists', Ne, registerValue_eq_none]
    omega
  refine ⟨v, execReadReg_assigned s hv, ?status, ?config, ?pending, ?link, ?level, ?controlled, ?owed, ?frames, ?counter⟩
  case status => rintro rfl; cases hv; exact BitVec.toNat_setWidth_of_le (by decide)
  case config => rintro rfl; cases hv; exact BitVec.toNat_setWidth_of_le (by decide)
  case pending =>
    rintro rfl
    cases hv
    have hlow : ∀ i < 5, Zone.all.any (fun z => (s.slots.mtz.get z).pending && decide (i = 7 + z.number)) = false :=
      fun i hi => regPending_zones_none s (by omega)
    refine ⟨?_, ?_, ?_, ?_, ?_, fun i h5 h7 => regPending_unused s (.inl ⟨h5, h7⟩), regPending_zone s,
      fun i hi => regPending_unused s (.inr hi)⟩
    all_goals rw [regPending_getLsbD, hlow _ (by decide)]; simp
  case link =>
    rintro rfl
    cases hv
    refine ⟨?_, ?_, ?_, ?_, ?_, ?_, ?_, fun i hi => regLink_unused s hi⟩
    all_goals rw [regLink_getLsbD]; simp
  case level => rintro rfl; cases hv; exact BitVec.toNat_ofNat _ _
  case controlled =>
    rintro rfl
    cases hv
    exact ⟨zoneFlags_zone _, fun i hi => zoneFlags_high _ hi⟩
  case owed =>
    rintro rfl
    cases hv
    exact ⟨zoneFlags_zone _, fun i hi => zoneFlags_high _ hi⟩
  case frames => rintro rfl; cases hv; rfl
  case counter =>
    intro k hk
    rw [registerValue_counter s hk] at hv
    exact (Option.some.inj hv).symm

/-- The bits of STATUS that CLEAR_STATUS keeps: those below 11 (R134). -/
theorem statusMask_getLsbD (n : Nat) : (0x07FF#16).getLsbD n = decide (n < 11) := by
  by_cases h : n < 16
  · interval_cases n <;> rfl
  · rw [BitVec.getLsbD_of_ge _ _ (by omega)]
    simp
    omega

/-- The bit of CONFIG that WRITE_CONFIG writes (R135). -/
theorem configMask_getLsbD (n : Nat) : (0x01#8).getLsbD n = decide (n = 0) := by
  rw [BitVec.getLsbD_one]
  simp

/-- Settles O37: each write is a mask on its register. -/
theorem statusAndConfigWrites : Obligations.StatusAndConfigWrites := by
  intro mask v s
  refine ⟨s.regs.status &&& ~~~mask &&& 0x07FF#16, v &&& 0x01#8, exec_clearStatus mask s, fun n => ?_,
    exec_writeConfig v s, fun n => ?_⟩
  · rw [BitVec.getLsbD_and, BitVec.getLsbD_and, statusMask_getLsbD, BitVec.getLsbD_not]
    by_cases hn : n < 11
    · simp [hn, show n < 16 by omega]
    · simp [hn]
  · rw [BitVec.getLsbD_and, configMask_getLsbD]

end Sys2Proof.Machine

/-! ### What a received frame leaves unchanged -/

namespace Sys2Proof.Machine

/-- All that a received frame can make of `s`: liveness is refreshed, `eosFlag`, the responses owed, the latches, STATUS and the
counters are arbitrary, and everything else, CONFIG included, is that of `s` (R34, R81). -/
def frameOutcome (s : State) (eos : Bool) (owed : Zones Bool) (latches : Latches) (regs : Registers) : State :=
  { s with
    timing := { s.timing with frameSeen := true, tFrame := s.now, eosFlag := eos }
    respPending := owed
    latches := latches
    regs := { regs with config := s.regs.config } }

/-- `t` is an outcome of a frame received at `s`, with `eosFlag` not cleared (R107). -/
inductive IsFrameOutcome (s : State) : State → Prop where
  | intro {eos : Bool} (heos : s.timing.eosFlag = true → eos = true) (owed : Zones Bool) (latches : Latches)
      (regs : Registers) : IsFrameOutcome s (frameOutcome s eos owed latches regs)

variable {s t u : State}

theorem isFrameOutcome_iff : IsFrameOutcome s t ↔
    t = frameOutcome s t.timing.eosFlag t.respPending t.latches t.regs ∧
      (s.timing.eosFlag = true → t.timing.eosFlag = true) := by
  constructor
  · rintro ⟨heos, owed, latches, regs⟩
    exact ⟨rfl, heos⟩
  · rintro ⟨ht, heos⟩
    exact ht ▸ .intro heos _ _ _

theorem IsFrameOutcome.refresh (s : State) : IsFrameOutcome s (refreshLiveness s) :=
  .intro id s.respPending s.latches s.regs

/-- After liveness is refreshed, each action of the frame touches only what a frame can change. -/
theorem IsFrameOutcome.frameAct {f : Frame} (h : IsFrameOutcome s t) (ha : FrameAct f t u) : IsFrameOutcome s u := by
  obtain ⟨heos, owed, latches, regs⟩ := h
  cases ha with
  | final ty =>
    rw [markFinal_eq]
    exact .intro (fun hs => by simp [frameOutcome, heos hs]) owed latches regs
  | raise k => exact .intro heos owed latches (raiseEvent k (frameOutcome s _ owed latches regs)).regs
  | refresh => exact .intro heos owed latches regs
  | count => exact .intro heos owed latches { regs with cntFrames := regs.cntFrames + 1 }
  | latchSm | latchSm2 | latchWall | latchMtz => exact .intro heos _ _ regs

/-- Every peer frame refreshes liveness first, so that a refresh before it is lost in its own (R82). -/
theorem applyFrame_refreshLiveness (f : Frame) (s : State) : applyFrame f (refreshLiveness s) = applyFrame f s := by
  cases f with
  | unknown cause bytes => cases cause <;> rfl
  | _ => rfl

theorem applyFrame_outcome (f : Frame) (s : State) : IsFrameOutcome s (applyFrame f s) := by
  rw [← applyFrame_refreshLiveness]
  exact applyFrame_preserves (fun _ _ ha hu => hu.frameAct ha) (.refresh s)

/-- Settles O26: a frame is liveness and then actions, none of which leaves the outcomes of a frame. -/
theorem framesLeaveTheRest : Obligations.FramesLeaveTheRest := by
  intro f s t h
  rw [exec_frame] at h
  cases h
  exact isFrameOutcome_iff.mp (applyFrame_outcome f s)

end Sys2Proof.Machine

/-! ### A tick leaves nothing for a second one -/

namespace Sys2Proof.Machine

variable {s t : State}

/-- Once the framer has had its turn, the buffer is empty or its frame not timed out (R61, R65). -/
theorem closeIfSilent_settles (h : closeIfSilent s = .next t) :
    t.framer.len = 0 ∨ (t.now - t.framer.tLast).toNat < 5 := by
  by_cases hidle : s.framer.len = 0 ∨ (s.now - s.framer.tLast).toNat < 5
  · rw [closeIfSilent_idle hidle] at h
    cases h
    exact hidle
  · have hdue : (decide (0 < s.framer.len) && silent s) = true := by
      simp only [silent_eq, Bool.and_eq_true, decide_eq_true_eq]
      omega
    rw [closeIfSilent, if_pos hdue, completeFrame] at h
    split at h
    · cases h
    · cases h
      obtain ⟨-, -, -, -, hframer, -⟩ := processFrame_keeps _ s.framer.echoAcc
        { s with framer := { s.framer with len := 0, echoAcc := false } }
      exact .inl (congrArg Framer.len hframer)

/-- Sending touches neither the parameters, nor the inputs, nor the time, nor the framer (R105). -/
theorem tickSend_keeps (s : State) : (tickSend s).params = s.params ∧ (tickSend s).inputs = s.inputs ∧
    (tickSend s).now = s.now ∧ (tickSend s).framer = s.framer := by
  rcases tickSend_cases s with he | ⟨-, -, z, -, he⟩ | ⟨-, -, -, -, k, -, he⟩ <;> rw [he]
  · simp
  · simp
  · simp

/-- A busy transmitter takes no second frame (R105, step 2). -/
theorem tickSend_busy (h : s.tx.txBusy = true) : tickSend s = s := by rw [tickSend, if_pos h]

/-- A tick that sends leaves the transmitter busy, and one that does not changes nothing, so sending again does nothing. -/
theorem tickSend_idem (s : State) : tickSend (tickSend s) = tickSend s := by
  rcases tickSend_cases s with he | ⟨-, -, z, -, he⟩ | ⟨-, -, -, -, k, -, he⟩
  · rw [he]
    exact he
  · rw [he]
    exact tickSend_busy (congrArg Transmitter.txBusy (sendResponse_tx s z))
  · rw [he]
    exact tickSend_busy (congrArg Transmitter.txBusy (drain_tx s k))

/-- A tick at the time the state already has, with no frame to complete, only sends (R105). -/
theorem tick_settled (h : s.framer.len = 0 ∨ (s.now - s.framer.tLast).toNat < 5) :
    tick s.now s = .next (tickSend s) := by
  show andThen (closeIfSilent s) _ = _
  rw [closeIfSilent_idle h, andThen_next]

/-- Settles O48: the first tick leaves the framer settled and the sending done; a first tick that stops has no second. -/
theorem secondTickChangesNothing : Obligations.SecondTickChangesNothing := by
  intro s time
  cases hfirst : tick time s with
  | fault r => rfl
  | refused r => rfl
  | next t =>
    obtain ⟨mid, hmid, rfl⟩ := tick_cases hfirst
    obtain ⟨-, -, -, hnow, -⟩ := closeIfSilent_keeps hmid
    obtain ⟨-, -, hsendNow, hsendFramer⟩ := tickSend_keeps mid
    have hsettled := closeIfSilent_settles hmid
    rw [← hsendNow, ← hsendFramer] at hsettled
    have htime : (tickSend mid).now = time := hsendNow.trans hnow
    calc tick time (tickSend mid)
        = tick (tickSend mid).now (tickSend mid) := by rw [htime]
      _ = .next (tickSend (tickSend mid)) := tick_settled hsettled
      _ = .next (tickSend mid) := by rw [tickSend_idem]

end Sys2Proof.Machine

/-! ### The parameters and the events to come -/

namespace Sys2Proof.Machine

/-- `t` has the parameters of `s`, and the events that `s` is still to take. -/
structure SameRun (s t : State) : Prop where
  params : t.params = s.params
  inputs : t.inputs = s.inputs

variable {s t : State}

theorem SameRun.trans {u : State} (h : SameRun s t) (k : SameRun t u) : SameRun s u :=
  ⟨k.params.trans h.params, k.inputs.trans h.inputs⟩

theorem sameRun_closeIfSilent (h : closeIfSilent s = .next t) : SameRun s t := by
  obtain ⟨hparams, hinputs, -⟩ := closeIfSilent_keeps h
  exact ⟨hparams, hinputs⟩

theorem sameRun_storeByte {b : Byte} (h : storeByte b s = .next t) : SameRun s t := by
  rcases storeByte_cases (storeByte_len_le h) h with ⟨-, rfl⟩ | ⟨-, rfl⟩
  · exact ⟨rfl, rfl⟩
  · exact ⟨rfl, rfl⟩

theorem sameRun_tickSend (s : State) : SameRun s (tickSend s) := by
  obtain ⟨hparams, hinputs, -⟩ := tickSend_keeps s
  exact ⟨hparams, hinputs⟩

theorem sameRun_txComplete (time : Word) (s : State) : SameRun s (txComplete time s) := by
  unfold txComplete
  split <;> exact ⟨rfl, rfl⟩

/-- No event changes the parameters (R44) or touches the events after it, not even a reset (R160). -/
theorem sameRun_applyEvent {e : Event} (h : applyEvent e s = .next t) : SameRun s t := by
  have hnow : ∀ time, SameRun s { s with now := time } := fun _ => ⟨rfl, rfl⟩
  cases e with
  | rxByte time b =>
    obtain ⟨mid, hm, ht⟩ := rxByte_cases h
    have hnote : SameRun mid (noteByte mid) := ⟨noteByte_params mid, noteByte_inputs mid⟩
    exact (((hnow time).trans (sameRun_closeIfSilent hm)).trans hnote).trans (sameRun_storeByte ht)
  | tick time =>
    obtain ⟨mid, hm, rfl⟩ := tick_cases h
    exact ((hnow time).trans (sameRun_closeIfSilent hm)).trans (sameRun_tickSend mid)
  | txComplete time =>
    cases h
    exact sameRun_txComplete time s
  | host time sel args =>
    have hexec := exec_keeps h
    exact (hnow time).trans ⟨hexec.params, hexec.inputs⟩
  | reset =>
    cases h
    exact ⟨resetEvent_params s, resetEvent_inputs s⟩

/-- Settles O56: a step takes its event from the inputs, and the event changes neither them nor the parameters. -/
theorem parametersNeverChange : Obligations.ParametersNeverChange := by
  intro s t h
  rcases step_cases h with ⟨hi, rfl⟩ | ⟨e, rest, hi, he⟩
  · exact ⟨rfl, by rw [hi]; rfl⟩
  · obtain ⟨hparams, hinputs⟩ := sameRun_applyEvent he
    exact ⟨hparams, by rw [hi]; exact hinputs⟩

end Sys2Proof.Machine

/-! ### The classifier, by tag -/

namespace Sys2Proof

variable {rules : List BcastRule} {tag : Byte}

/-- A byte is its high nibble and its low one. -/
theorem append_nibbles (b : Byte) : b.extractLsb' 4 4 ++ b.extractLsb' 0 4 = b :=
  BitVec.extractLsb'_append_extractLsb' (len := 4) (w := 4)

/-- The mask of the zone rows reads the high nibble (R80). -/
theorem and_0xF0_eq_iff (b : Byte) (n : BitVec 4) : b &&& 0xF0#8 = n ++ 0#4 ↔ b.extractLsb' 4 4 = n := by
  have hmask : b &&& 0xF0#8 = b.extractLsb' 4 4 ++ 0#4 := by
    calc b &&& 0xF0#8 = (b.extractLsb' 4 4 ++ b.extractLsb' 0 4) &&& (BitVec.allOnes 4 ++ 0#4) := by
          rw [append_nibbles]; rfl
      _ = b.extractLsb' 4 4 ++ 0#4 := by rw [BitVec.and_append, BitVec.and_allOnes, BitVec.and_zero]
  rw [hmask, BitVec.append_left_inj]

theorem highNibble_toNat (b : Byte) : (b.extractLsb' 4 4).toNat = b.toNat / 16 := by
  rw [BitVec.extractLsb'_toNat, Nat.shiftRight_eq_div_pow]
  omega

theorem isCommandTag_iff :
    isCommandTag tag = true ↔ tag = 0x3A#8 ∨ tag = 0x3B#8 ∨ tag = 0x3C#8 ∨ tag = 0x3D#8 ∨ tag = 0x3F#8 := by
  simp [isCommandTag, or_assoc]

/-- A tag with the high nibble of a zone row is no command's. -/
theorem not_isCommandTag_append {n : BitVec 4} (h : n ≠ 3#4) (zone : BitVec 4) : isCommandTag (n ++ zone) = false := by
  by_contra hc
  rw [Bool.not_eq_false, isCommandTag_iff] at hc
  have hn : (n ++ zone).extractLsb' 4 4 = n := BitVec.extractLsb'_append_eq_left
  rcases hc with hc | hc | hc | hc | hc <;> exact h (hn.symm.trans (by rw [hc]; rfl))

/-- A command tag gives its command row, whatever the broadcast rules are (R46, R80). -/
theorem classify_command (rules : List BcastRule) (h : isCommandTag tag = true) :
    ∃ r ∈ commandRules, r.value = tag ∧ classify rules tag = some r := by
  rcases isCommandTag_iff.mp h with rfl | rfl | rfl | rfl | rfl
  · exact ⟨⟨0xFF, 0x3A, .masterSetpoint, 2⟩, by decide, rfl, rfl⟩
  · exact ⟨⟨0xFF, 0x3B, .fanMode, 2⟩, by decide, rfl, rfl⟩
  · exact ⟨⟨0xFF, 0x3C, .operatingMode, 2⟩, by decide, rfl, rfl⟩
  · exact ⟨⟨0xFF, 0x3D, .zoneState, 2⟩, by decide, rfl, rfl⟩
  · exact ⟨⟨0xFF, 0x3F, .customZoneSetpoint, 3⟩, by decide, rfl, rfl⟩

/-- Any other tag goes to the broadcast rules, and from them to the zone rows (R46, R80). -/
theorem classify_not_command (h : isCommandTag tag = false) :
    classify rules tag =
      ((rules.find? (fun r => r.hits tag)).map (fun r => ⟨r.mask, r.value, .bcast r.type, r.length⟩)).or
        (zoneRules.find? (fun r => tag &&& r.mask == r.value)) := by
  rw [classify, classRules, List.find?_append, List.find?_append, commandRules_miss tag h, Option.none_or,
    bcastRows_find]

/-- The zone rows, by the high nibble of the tag (R46, R80). -/
theorem zoneRules_find (tag : Byte) :
    zoneRules.find? (fun r => tag &&& r.mask == r.value) =
      if tag.extractLsb' 4 4 = 0xC#4 then some ⟨0xF0, 0xC0, .zoneWallController, 5⟩
      else if tag.extractLsb' 4 4 = 0x8#4 then some ⟨0xF0, 0x80, .zoneMasterController, 7⟩
      else none := by
  have hwall : (tag &&& 0xF0 == 0xC0) = decide (tag.extractLsb' 4 4 = 0xC#4) :=
    decide_eq_decide.mpr (and_0xF0_eq_iff tag 0xC#4)
  have hmtz : (tag &&& 0xF0 == 0x80) = decide (tag.extractLsb' 4 4 = 0x8#4) :=
    decide_eq_decide.mpr (and_0xF0_eq_iff tag 0x8#4)
  simp only [zoneRules, List.find?_cons, List.find?_nil, hwall, hmtz]
  split_ifs with hc h8
  · simp [hc]
  · simp [h8]
  · simp [hc, h8]

theorem classify_bcast (h : isCommandTag tag = false) {r : BcastRule} (hr : rules.find? (fun r => r.hits tag) = some r) :
    classify rules tag = some ⟨r.mask, r.value, .bcast r.type, r.length⟩ := by
  rw [classify_not_command h, hr]
  rfl

theorem classify_zone (h : isCommandTag tag = false) (hr : rules.find? (fun r => r.hits tag) = none) :
    classify rules tag =
      if tag.extractLsb' 4 4 = 0xC#4 then some ⟨0xF0, 0xC0, .zoneWallController, 5⟩
      else if tag.extractLsb' 4 4 = 0x8#4 then some ⟨0xF0, 0x80, .zoneMasterController, 7⟩
      else none := by
  rw [classify_not_command h, hr, Option.map_none, Option.none_or, zoneRules_find]

theorem classify_of_bcastRuleOf {r : BcastRule} (h : bcastRuleOf rules tag = some r) :
    classify rules tag = some ⟨r.mask, r.value, .bcast r.type, r.length⟩ := by
  unfold bcastRuleOf at h
  split at h
  · cases h
  · next hc => exact classify_bcast (Bool.eq_false_iff.mpr hc) h

theorem bcastRuleOf_not_command (h : isCommandTag tag = false) :
    bcastRuleOf rules tag = rules.find? (fun r => r.hits tag) := by
  simp [bcastRuleOf, h]

/-- The length a tag requires is the length of the row that takes it (R45, R46, R80). -/
theorem lengthOfTag_eq (rules : List BcastRule) (tag : Byte) :
    lengthOfTag rules tag = (classify rules tag).map (·.length) := by
  cases hc : isCommandTag tag with
  | true => rcases isCommandTag_iff.mp hc with rfl | rfl | rfl | rfl | rfl <;> rfl
  | false =>
    have h3F : tag ≠ 0x3F#8 := by rintro rfl; cases hc
    unfold lengthOfTag
    simp only [beq_iff_eq, h3F, if_false, hc, Bool.false_eq_true, bcastRuleOf_not_command hc]
    cases hr : rules.find? (fun r => r.hits tag) with
    | some r => rw [classify_bcast hc hr]; rfl
    | none => rw [classify_zone hc hr]; split_ifs <;> rfl

/-- Settles O3: the commands come first, and a tag that passes them passes the broadcast rules before the zone rows. -/
theorem tagsClassifyFirstMatch : Obligations.TagsClassifyFirstMatch := by
  intro rules tag
  refine ⟨classify_command rules, fun r hc hr => classify_bcast hc hr, fun hc hr => ?_⟩
  have hnibble : ∀ n : BitVec 4, tag.toNat / 16 = n.toNat ↔ tag.extractLsb' 4 4 = n := fun n => by
    rw [← highNibble_toNat, BitVec.toNat_inj]
  rw [classify_zone hc hr]
  exact (if_congr (hnibble 0xC#4) rfl (if_congr (hnibble 0x8#4) rfl rfl)).symm

end Sys2Proof

/-! ### The field layouts, both ways -/

namespace Sys2Proof

/-- The field in the middle of a byte. -/
theorem extractLsb'_append_middle {u v w : Nat} (a : BitVec u) (x : BitVec v) (y : BitVec w) :
    (a ++ x ++ y).extractLsb' w v = x := by
  ext i hi
  rw [BitVec.getElem_extractLsb', BitVec.getLsbD_append, BitVec.getLsbD_append]
  simp [hi, BitVec.getLsbD_eq_getElem]

/-- A flag is a field of one bit. -/
theorem ofBool_getLsbD {w : Nat} (b : BitVec w) (i : Nat) : BitVec.ofBool (b.getLsbD i) = b.extractLsb' i 1 := by
  ext j hj
  obtain rfl : j = 0 := by omega
  simp

/-- Fields that lie side by side make up the field over both. -/
theorem extractLsb'_join {w : Nat} (b : BitVec w) {k l m n : Nat} (h : k = l + m) :
    b.extractLsb' k n ++ b.extractLsb' l m = b.extractLsb' l (n + m) :=
  BitVec.extractLsb'_append_extractLsb'_eq_extractLsb' h

/-- The wire bits of a wall frame come back from the bytes they were written to (R51, R95). -/
theorem parseWallBits_of_pack {zone : BitVec 4} {f : WallBits} {b0 b1 b2 b3 : Byte}
    (h : packWallBits zone f = [b0, b1, b2, b3]) : parseWallBits b1 b2 b3 = f := by
  cases h
  have hlow : f.low10.extractLsb' 8 2 ++ f.low10.extractLsb' 0 8 = f.low10 :=
    BitVec.extractLsb'_append_extractLsb' (len := 8) (w := 2)
  simp only [parseWallBits, BitVec.getLsbD_append, extractLsb'_append_middle, BitVec.extractLsb'_append_eq_right, hlow]
  simp

/-- The wire bits of a master frame come back from the bytes they were written to (R54, R101). -/
theorem parseMtzBits_of_pack {f : MtzBits} {b1 b2 b3 b4 b5 : Byte} (h : packMtzPayload f = [b1, b2, b3, b4, b5]) :
    parseMtzBits b1 b2 b3 b4 b5 = f := by
  cases h
  have htemp : f.temp9.extractLsb' 8 1 ++ f.temp9.extractLsb' 0 8 = f.temp9 :=
    BitVec.extractLsb'_append_extractLsb' (len := 8) (w := 1)
  simp only [parseMtzBits, BitVec.getLsbD_append, extractLsb'_append_middle, BitVec.extractLsb'_append_eq_right, htemp]
  simp

/-- The zone and the wire bits of a wall frame hold every bit of its first four bytes (R51, R93). -/
theorem packWallBits_parse {b0 : Byte} (h : b0.extractLsb' 4 4 = 0xC#4) (b1 b2 b3 : Byte) :
    packWallBits (b0.extractLsb' 0 4) (parseWallBits b1 b2 b3) = [b0, b1, b2, b3] := by
  have hhigh : (parseWallBits b1 b2 b3).low10.extractLsb' 8 2 = b2.extractLsb' 0 2 := BitVec.extractLsb'_append_eq_left
  have hlow : (parseWallBits b1 b2 b3).low10.extractLsb' 0 8 = b3 := BitVec.extractLsb'_append_eq_right
  rw [packWallBits, hhigh, hlow, ← h, append_nibbles]
  simp only [parseWallBits, ofBool_getLsbD, extractLsb'_join, BitVec.extractLsb'_eq_self]

/-- The wire bits of a master frame hold every bit of its bytes 1 to 5 (R54, R97). -/
theorem packMtzPayload_parse (b1 b2 b3 b4 b5 : Byte) :
    packMtzPayload (parseMtzBits b1 b2 b3 b4 b5) = [b1, b2, b3, b4, b5] := by
  have hhigh : (parseMtzBits b1 b2 b3 b4 b5).temp9.extractLsb' 8 1 = b2.extractLsb' 0 1 :=
    BitVec.extractLsb'_append_eq_left
  have hlow : (parseMtzBits b1 b2 b3 b4 b5).temp9.extractLsb' 0 8 = b1 := BitVec.extractLsb'_append_eq_right
  rw [packMtzPayload, hhigh, hlow]
  simp only [parseMtzBits, ofBool_getLsbD, extractLsb'_join, BitVec.extractLsb'_eq_self]

/-- The zone and the wire bits of a master frame hold every bit of its first six bytes (R54, R97). -/
theorem packMtzBits_parse {b0 : Byte} (h : b0.extractLsb' 4 4 = 0x8#4) (b1 b2 b3 b4 b5 : Byte) :
    packMtzBits (b0.extractLsb' 0 4) (parseMtzBits b1 b2 b3 b4 b5) = [b0, b1, b2, b3, b4, b5] := by
  rw [packMtzBits, packMtzPayload_parse, ← h, append_nibbles]

end Sys2Proof

/-! ### Frames, decoded and encoded -/

namespace Sys2Proof

variable {rules : List BcastRule} {tag : Byte} {b : List Byte}

/-- What a frame of the kind says of its tag beyond its payload: a command its tag, a zone frame the high nibble. -/
def FrameKind.Takes (tag : Byte) : FrameKind → Prop
  | .masterSetpoint => tag = 0x3A#8
  | .fanMode => tag = 0x3B#8
  | .operatingMode => tag = 0x3C#8
  | .zoneState => tag = 0x3D#8
  | .customZoneSetpoint => tag = 0x3F#8
  | .bcast _ => True
  | .zoneWallController => tag.extractLsb' 4 4 = 0xC#4
  | .zoneMasterController => tag.extractLsb' 4 4 = 0x8#4

/-- The classifier gives a tag a kind that takes it (R80). -/
theorem classify_takes {r : ClassRule} (h : classify rules tag = some r) : r.kind.Takes tag := by
  cases hc : isCommandTag tag with
  | true => rcases isCommandTag_iff.mp hc with rfl | rfl | rfl | rfl | rfl <;> cases h <;> rfl
  | false =>
    cases hr : rules.find? (fun r => r.hits tag) with
    | some q => rw [classify_bcast hc hr] at h; cases h; trivial
    | none =>
      rw [classify_zone hc hr] at h
      split_ifs at h with hwall hmtz
      · cases h; exact hwall
      · cases h; exact hmtz

/-- A frame built from bytes whose tag its kind takes encodes to those bytes (R50, R51, R54, R56). -/
theorem encode_buildFrame {kind : FrameKind} {rest : List Byte} (h : kind.Takes tag) :
    encode (buildFrame kind (tag :: rest)).toInstr = tag :: rest := by
  unfold buildFrame
  split
  case h_1 | h_2 | h_3 | h_4 | h_5 => next heq => cases heq; cases h; rfl
  case h_6 | h_7 | h_8 | h_11 => rfl
  case h_9 b0 b1 b2 b3 b4 heq => rw [heq]; cases heq; exact congrArg (· ++ [b4]) (packWallBits_parse h b1 b2 b3)
  case h_10 b0 b1 b2 b3 b4 b5 b6 heq =>
    rw [heq]; cases heq; exact congrArg (· ++ [b6]) (packMtzBits_parse h b1 b2 b3 b4 b5)

/-- Settles O2: an Unknown frame is its bytes, and any other was built from bytes whose tag its kind takes. -/
theorem encodeInvertsDecodeFrame : Obligations.EncodeInvertsDecodeFrame := by
  intro rules b
  unfold decodeFrame
  split
  · rfl
  · split
    · rfl
    · next r hr =>
      split
      · exact encode_buildFrame (classify_takes hr)
      · rfl

theorem decodeFrame_of_classify {r : ClassRule} {rest : List Byte} (h : classify rules tag = some r)
    (hl : (tag :: rest).length = r.length) : decodeFrame rules (tag :: rest) = buildFrame r.kind (tag :: rest) := by
  simp only [decodeFrame, h, hl, if_true]

theorem decodeFrame_of_isBcast {t : BcastType} (h : isBcast rules t b = true) :
    decodeFrame rules b = buildFrame (.bcast t) b := by
  unfold isBcast at h
  split at h
  · cases h
  · split at h
    · cases h
    · next r hr =>
      simp only [Bool.and_eq_true, beq_iff_eq] at h
      obtain ⟨rfl, hl⟩ := h
      exact decodeFrame_of_classify (classify_of_bcastRuleOf hr) hl.symm

/-- A frame the classifier does not take decodes to Unknown, with its cause (R57, R83, R104). -/
theorem decodeFrame_of_isDropped {cap : Nat} {cause : DropCause} (h : isDropped rules cap cause b = true) :
    decodeFrame rules b = .unknown cause b := by
  unfold isDropped at h
  split at h
  · cases h
  · next tag rest =>
    rw [Bool.and_eq_true, lengthOfTag_eq] at h
    obtain ⟨-, h⟩ := h
    cases hr : classify rules tag with
    | none =>
      cases cause with
      | unknownTag => simp only [decodeFrame, hr]
      | lengthMismatch => simp [hr] at h
    | some r =>
      cases cause with
      | unknownTag => simp [hr] at h
      | lengthMismatch =>
        have hl : ¬(tag :: rest).length = r.length := fun hl => by simp [hr, hl] at h
        simp only [decodeFrame, hr, hl, if_false]

/-- A tag with the high nibble of a zone row goes to that row unless a broadcast rule takes it (R46, R80). -/
theorem classify_zone_of_bcastRuleOf {n zone : BitVec 4} (hn : n ≠ 3#4) (h : (bcastRuleOf rules (n ++ zone)).isNone = true) :
    classify rules (n ++ zone) =
      if n = 0xC#4 then some ⟨0xF0, 0xC0, .zoneWallController, 5⟩
      else if n = 0x8#4 then some ⟨0xF0, 0x80, .zoneMasterController, 7⟩
      else none := by
  have hc := not_isCommandTag_append hn zone
  rw [bcastRuleOf_not_command hc, Option.isNone_iff_eq_none] at h
  rw [classify_zone hc h, BitVec.extractLsb'_append_eq_left]

theorem decodeFrame_packWallBits {zone : BitVec 4} (h : (bcastRuleOf rules (0xC#4 ++ zone)).isNone = true) (f : WallBits)
    (csum : Byte) : decodeFrame rules (packWallBits zone f ++ [csum]) = .zoneWallController zone f csum := by
  have hr := classify_zone_of_bcastRuleOf (by decide) h
  have hzone : (0xC#4 ++ zone).extractLsb' 0 4 = zone := BitVec.extractLsb'_append_eq_right
  calc decodeFrame rules (packWallBits zone f ++ [csum])
      = .zoneWallController ((0xC#4 ++ zone).extractLsb' 0 4) (parseWallBits _ _ _) csum := decodeFrame_of_classify hr rfl
    _ = .zoneWallController zone f csum := by rw [hzone, parseWallBits_of_pack (zone := zone) rfl]

theorem decodeFrame_packMtzBits {zone : BitVec 4} (h : (bcastRuleOf rules (0x8#4 ++ zone)).isNone = true) (f : MtzBits)
    (csum : Byte) : decodeFrame rules (packMtzBits zone f ++ [csum]) = .zoneMasterController zone f csum := by
  have hr := classify_zone_of_bcastRuleOf (by decide) h
  have hzone : (0x8#4 ++ zone).extractLsb' 0 4 = zone := BitVec.extractLsb'_append_eq_right
  calc decodeFrame rules (packMtzBits zone f ++ [csum])
      = .zoneMasterController ((0x8#4 ++ zone).extractLsb' 0 4) (parseMtzBits _ _ _ _ _) csum :=
        decodeFrame_of_classify hr rfl
    _ = .zoneMasterController zone f csum := by rw [hzone, parseMtzBits_of_pack rfl]

end Sys2Proof

/-! ### Host operations, encoded and decoded -/

namespace Sys2Proof

theorem bitByte_getLsbD (on : Bool) : (bitByte on).getLsbD 0 = on := by cases on <;> rfl

theorem half_extract (d : Half) : half (d.extractLsb' 8 8) (d.extractLsb' 0 8) = d :=
  BitVec.extractLsb'_append_extractLsb' (len := 8) (w := 8)

/-- The row of PROCESS_MESSAGE recovers the length from its low eight bits and the bytes (R59, assumption 10). -/
theorem argsBytes_of_length {sel : Byte} {n : BitVec 9} {bytes : List Byte} (hn : n.toNat ≤ 256)
    (hl : bytes.length = n.toNat) (k : BitVec 9 → List Byte → Instr) :
    argsBytes sel (n.setWidth 8 :: bytes) k = k n bytes := by
  have hlow : bytes.length ≤ 256 ∧ bytes.length % 256 = (n.setWidth 8).toNat := by
    rw [BitVec.toNat_setWidth]
    omega
  simp only [argsBytes]
  rw [if_pos hlow, hl, BitVec.ofNat_toNat, BitVec.setWidth_eq]

/-- Settles O1: a frame is taken by the row its tag was written for, and a host operation by the row of its selector; the layouts
lose no field. -/
theorem decodeInvertsEncode : Obligations.DecodeInvertsEncode := by
  intro rules cap i h
  cases i with
  | stateMessage bytes => exact congrArg Frame.toInstr (decodeFrame_of_isBcast h)
  | stateMessage2 bytes => exact congrArg Frame.toInstr (decodeFrame_of_isBcast h)
  | broadcast k bytes => exact congrArg Frame.toInstr (decodeFrame_of_isBcast h)
  | zoneWallController zone f csum => exact congrArg Frame.toInstr (decodeFrame_packWallBits h f csum)
  | zoneMasterController zone f csum => exact congrArg Frame.toInstr (decodeFrame_packMtzBits h f csum)
  | unknown cause bytes => exact congrArg Frame.toInstr (decodeFrame_of_isDropped h)
  | setSystemOn on => exact congrArg Instr.setSystemOn (bitByte_getLsbD on)
  | setMasterSetpoint d => exact congrArg Instr.setMasterSetpoint (half_extract d)
  | setZoneOn zone on => exact congrArg (Instr.setZoneOn zone) (bitByte_getLsbD on)
  | setZoneSetpointTemperature zone d adjustMaster =>
    exact congrArg₂ (Instr.setZoneSetpointTemperature zone) (half_extract d) (bitByte_getLsbD adjustMaster)
  | setZoneCurrentTemperature zone d => exact congrArg (Instr.setZoneCurrentTemperature zone) (half_extract d)
  | setControlZone zone en => exact congrArg (Instr.setControlZone zone) (bitByte_getLsbD en)
  | sendZoneMasterOverride zone f => exact congrArg (Instr.sendZoneMasterOverride zone) (parseMtzBits_of_pack rfl)
  | clearStatus mask => exact congrArg Instr.clearStatus (half_extract mask)
  | processMessage n bytes =>
    obtain ⟨hn, hl⟩ := Bool.and_eq_true_iff.mp h
    exact (decodeHost_0E _).trans (argsBytes_of_length (of_decide_eq_true hn) (beq_iff_eq.mp hl) _)
  | unassignedSelector sel args => exact decodeHost_not_taken (by simpa [WellFormed] using h)
  | _ => rfl

/-- Settles O6: the decoder, evaluated on each of the words. -/
theorem writtenWordsDecode : Obligations.WrittenWordsDecode :=
  ⟨rfl, rfl, rfl, rfl, rfl, rfl, rfl, rfl⟩

end Sys2Proof

/-! ### The views of a wall frame -/

namespace Sys2Proof.Machine

/-- Each generated flag, by the mode or the sub-type it stands for (R52, R95). -/
theorem wallFlags_eq (m : WallMode) (t : WallSubtype) :
    wallFlags m t = (m != .off, m == .opn, t == .config, t == .initZone) := by
  cases m <;> cases t <;> rfl

/-- Generated flags parse back to the mode and the sub-type they were generated for (R52, R93, R95). -/
theorem wall_views_of_wallFlags {f : WallBits} {m : WallMode} {t : WallSubtype}
    (h : wallFlags m t = (f.on, f.opn, f.config, f.init)) : wallMode f = m ∧ wallSubtype f = t := by
  rw [wallFlags_eq] at h
  simp only [Prod.mk.injEq] at h
  obtain ⟨hon, hopn, hconfig, hinit⟩ := h
  constructor
  · rw [wallMode, ← hon, ← hopn]
    cases m <;> rfl
  · rw [wallSubtype, ← hconfig, ← hinit]
    cases t <;> rfl

theorem wallMode_eq_opn_iff (f : WallBits) : wallMode f = .opn ↔ f.opn = true := by
  unfold wallMode
  split_ifs <;> simp_all

theorem wallMode_eq_on_iff (f : WallBits) : wallMode f = .on ↔ f.opn = false ∧ f.on = true := by
  unfold wallMode
  split_ifs <;> simp_all

theorem wallSubtype_eq_initZone_iff (f : WallBits) : wallSubtype f = .initZone ↔ f.init = true := by
  unfold wallSubtype
  split_ifs <;> simp_all

theorem wallSubtype_eq_config_iff (f : WallBits) : wallSubtype f = .config ↔ f.init = false ∧ f.config = true := by
  unfold wallSubtype
  split_ifs <;> simp_all

/-- A Config frame carries a calibration in place of a temperature (R53). -/
theorem wall_carries_of_config {f : WallBits} (h : wallSubtype f = .config) :
    wallTemperature f = none ∧ wallCalibration f = some (f.low10.setWidth 8).toInt := by
  rw [wallTemperature, wallCalibration, h]
  exact ⟨rfl, rfl⟩

/-- Every other frame carries a temperature and no calibration (R53). -/
theorem wall_carries_of_not_config {f : WallBits} (h : wallSubtype f ≠ .config) :
    wallTemperature f = some (tempFromRaw f.low10.toInt) ∧ wallCalibration f = none := by
  unfold wallTemperature wallCalibration
  cases hs : wallSubtype f with
  | config => exact absurd hs h
  | normal => exact ⟨rfl, rfl⟩
  | initZone => exact ⟨rfl, rfl⟩

/-- Settles O15: the views are read off the flags, and which value the frame carries off the sub-type. -/
theorem wallViewsFollowFlags : Obligations.WallViewsFollowFlags := by
  refine ⟨fun f m t h => wall_views_of_wallFlags h, fun f =>
    ⟨wallMode_eq_opn_iff f, wallMode_eq_on_iff f, wallSubtype_eq_initZone_iff f, wallSubtype_eq_config_iff f,
      fun hinit hconfig => wall_carries_of_config ((wallSubtype_eq_config_iff f).mpr ⟨hinit, hconfig⟩),
      fun h => wall_carries_of_not_config fun hs => ?_⟩⟩
  obtain ⟨hinit, hconfig⟩ := (wallSubtype_eq_config_iff f).mp hs
  simp [hinit, hconfig] at h

end Sys2Proof.Machine

/-! ### PROCESS_MESSAGE and the unassigned selectors -/

namespace Sys2Proof.Machine

variable {n : BitVec 9} {bytes : List Byte} {s : State}

/-- A length outside the buffer's range is a bad argument (R136). -/
theorem exec_processMessage_outside (h : n.toNat < 1 ∨ s.params.frameCap < n.toNat) :
    exec (.processMessage n bytes) s = .next (raiseEvent .badArgument s) := by
  have hdom : (decide (1 ≤ n.toNat) && decide (n.toNat ≤ s.params.frameCap) && bytes.length == n.toNat) = false := by
    rcases h with h | h <;> simp [Nat.not_le.mpr h]
  rw [exec_processMessage, execProcessMessage, hdom]
  rfl

/-- A length in range is processed as a peer's frame (R81, R136). -/
theorem exec_processMessage_inside (hl : bytes.length = n.toNat) (h1 : 1 ≤ n.toNat) (hcap : n.toNat ≤ s.params.frameCap) :
    exec (.processMessage n bytes) s = .next (processFrame bytes false s) := by
  simp [exec_processMessage, execProcessMessage, withDomain, hl, h1, hcap]

/-- Settles O38: in range the message is the peer frame its bytes decode to, and no frame touches the framer or the window. -/
theorem processMessageRunsTheFrame : Obligations.ProcessMessageRunsTheFrame := by
  intro n bytes s hl
  refine ⟨exec_processMessage_outside, fun h1 hcap => ⟨processFrame bytes false s, exec_processMessage_inside hl h1 hcap,
    processFrame_peer bytes s, ?_⟩⟩
  have hkeep := processFrame_execKeeps bytes false s
  exact ⟨hkeep.framer, by rw [hkeep.timing], by rw [hkeep.timing]⟩

/-- Settles O43: arguments that no row takes decode to the unassigned selector, whose meaning is the event alone. -/
theorem unassignedSelectorIsRefused : Obligations.UnassignedSelectorIsRefused := by
  intro sel args s
  refine ⟨exec_unassignedSelector sel args s, fun h => ?_⟩
  rw [decodeHost_not_taken h]
  exact exec_unassignedSelector sel args s

end Sys2Proof.Machine

/-! ### The timer predicates -/

namespace Sys2Proof.Machine

/-- When the bus is quiet (R106). -/
theorem quiet_iff (s : State) : quiet s = true ↔
    s.timing.rxSeen = true ∧ 500 ≤ (s.now - s.timing.tRx).toNat ∧ (s.now - s.timing.tRx).toNat < 1000 := by
  simp [quiet, and_assoc]

/-- When the spacing between attempts is kept (R108). -/
theorem spacingOk_iff (s : State) :
    spacingOk s = true ↔ s.timing.attSeen = false ∨ 900 ≤ (s.now - s.timing.tAtt).toNat := by
  simp [spacingOk]

/-- When a peer has been heard of late (R111). -/
theorem receivingData_iff (s : State) :
    receivingData s = true ↔ s.timing.frameSeen = true ∧ (s.now - s.timing.tFrame).toNat < 3000 := by
  simp [receivingData]

/-- When a command or a data send is recent enough to hold broadcasts off (R112). -/
theorem debounceActive_iff (s : State) : debounceActive s = true ↔
    s.timing.cmdSeen = true ∧ (s.now - s.timing.tCmd).toNat < 3000 ∨
      s.timing.dataSeen = true ∧ (s.now - s.timing.tData).toNat < 3000 := by
  simp [debounceActive]

/-- Settles O17: each predicate is the comparison of its rule, with the constants of the spec. -/
theorem timersCompareElapsedTime : Obligations.TimersCompareElapsedTime := fun s =>
  ⟨quiet_iff s, spacingOk_iff s, receivingData_iff s, debounceActive_iff s, isEchoByte_iff s⟩

end Sys2Proof.Machine

/-! ### Liveness -/

namespace Sys2Proof.Machine

/-- A peer's frame, whatever its outcome, has liveness refreshed (R82). -/
theorem IsFrameOutcome.live {s t : State} (h : IsFrameOutcome s t) : t.timing.frameSeen = true ∧ t.timing.tFrame = s.now := by
  obtain ⟨-, owed, latches, regs⟩ := h
  exact ⟨rfl, rfl⟩

theorem processFrame_outcome (bytes : List Byte) (s : State) : IsFrameOutcome s (processFrame bytes false s) :=
  applyFrame_outcome (decodeFrame s.params.bcastRules bytes) s

/-- Settles O25: liveness is part of every outcome of a peer's frame, and an echo frame does nothing but raise its event. -/
theorem peerFramesRefreshLiveness : Obligations.PeerFramesRefreshLiveness := by
  intro bytes s
  exact ⟨(processFrame_outcome bytes s).live, if_pos rfl⟩

end Sys2Proof.Machine

/-! ### A full buffer -/

namespace Sys2Proof.Machine

/-- A byte that finds the buffer full is dropped with the frame, and the overflow is reported (R66). -/
theorem storeByte_full {s : State} (b : Byte) (h : s.framer.len = s.params.frameCap) :
    storeByte b s =
      .next (raiseEvent .frameTooLong { s with framer := { s.framer with len := 0, echoAcc := false } }) := by
  rw [storeByte, if_pos h]

/-- Settles O46: the framer leaves the frame in progress, the byte is noted as traffic, and the full buffer is discarded. -/
theorem overflowDiscardsTheFrame : Obligations.OverflowDiscardsTheFrame := by
  intro s t b rest echo hi hfull _ hsil hecho
  have hmark : isEchoByte (presented s t rest) = echo := Bool.eq_iff_iff.mpr ((isEchoByte_iff _).trans hecho.symm)
  rw [step_rxByte hi (closeIfSilent_idle (s := presented s t rest) (.inr hsil)),
    storeByte_full (s := noteByte (presented s t rest)) b hfull, noteByte, hmark]
  cases echo <;> rfl

end Sys2Proof.Machine

/-! ### Every instruction goes on -/

namespace Sys2Proof.Machine

variable {s : State}

theorem Runs.next (t : State) : Runs (.next t) := ⟨t, rfl⟩

/-! A check of a host operation goes on when it fails, and so when what it guards goes on (R119, R148). -/

theorem Runs.gated {k : State → Result} (h : Runs (k s)) : Runs (gated s k) := by
  unfold Machine.gated
  split
  · exact h
  · exact .next _

theorem Runs.withZone {zone : Byte} {k : Zone → State → Result} (h : ∀ z, Runs (k z s)) : Runs (withZone zone s k) := by
  unfold Machine.withZone
  split
  · exact h _
  · exact .next _

theorem Runs.withDomain {ok : Bool} {k : State → Result} (h : Runs (k s)) : Runs (withDomain ok s k) := by
  unfold Machine.withDomain
  split
  · exact h
  · exact .next _

theorem Runs.withContext {α : Type} {v : Option α} {k : α → State → Result} (h : ∀ x, Runs (k x s)) :
    Runs (withContext v s k) := by
  cases v
  · exact .next _
  · exact h _

theorem execReadReg_runs (n : Byte) (s : State) : Runs (execReadReg n s) := by
  unfold execReadReg
  split <;> exact .next _

theorem execGetZone_runs (zone : Byte) (s : State) : Runs (execGetZone zone s) := by
  unfold execGetZone
  split <;> exact .next _

theorem execSetZoneSetpointTemperature_runs (zone : Byte) (d : Half) (adjustMaster : Bool) (s : State) :
    Runs (execSetZoneSetpointTemperature zone d adjustMaster s) := by
  unfold execSetZoneSetpointTemperature
  refine .gated (.withZone fun z => ?_)
  dsimp only
  split
  · exact .next _
  · exact .withContext fun _ => .next _

/-- No instruction stops the machine (R148). -/
theorem exec_runs (i : Instr) (s : State) : Runs (exec i s) := by
  cases i with
  | setSystemOn on =>
    rw [exec_setSystemOn, execSetSystemOn]
    exact .gated (.withContext fun _ => .next _)
  | setOperatingMode mode =>
    rw [exec_setOperatingMode, execSetOperatingMode]
    exact .gated (.withDomain (.next _))
  | setFanSpeed speed =>
    rw [exec_setFanSpeed, execSetFanSpeed]
    exact .gated (.withDomain (.withContext fun _ => .next _))
  | setFanSpeedAbsolute speed cont =>
    rw [exec_setFanSpeedAbsolute, execSetFanSpeedAbsolute]
    exact .gated (.withDomain (.next _))
  | setContinuousFanMode cont =>
    rw [exec_setContinuousFanMode, execSetContinuousFanMode]
    exact .gated (.withDomain (.withContext fun _ => .next _))
  | setMasterSetpoint d =>
    rw [exec_setMasterSetpoint, execSetMasterSetpoint]
    exact .gated (.next _)
  | setZoneOn zone on =>
    rw [exec_setZoneOn, execSetZoneOn]
    exact .gated (.withZone fun _ => .withContext fun _ => .next _)
  | setZoneSetpointTemperature zone d adjustMaster =>
    exact execSetZoneSetpointTemperature_runs zone d adjustMaster s
  | setZoneCurrentTemperature zone d =>
    rw [exec_setZoneCurrentTemperature, execSetZoneCurrentTemperature]
    exact .withZone fun _ => .next _
  | setControlZone zone en =>
    rw [exec_setControlZone, execSetControlZone]
    exact .withZone fun _ => .next _
  | sendZoneMasterOverride zone f =>
    rw [exec_sendZoneMasterOverride, execSendZoneMasterOverride]
    exact .withZone fun _ => .next _
  | processMessage n bytes =>
    rw [exec_processMessage, execProcessMessage]
    exact .withDomain (.next _)
  | readReg n => exact execReadReg_runs n s
  | getZone zone => exact execGetZone_runs zone s
  | _ => exact .next _

end Sys2Proof.Machine

/-! ### The gap between two bytes -/

namespace Sys2Proof.Machine

/-- The address a byte at `time` goes to: behind the frame in progress, or the first one after a silence (R62, R63). -/
def nextAddress (s : State) (time : Word) : Nat := if 5 ≤ (time - s.framer.tLast).toNat then 0 else s.framer.len

/-- An event that may lie between a byte at `tLast` and the next one at `time`: a tick not later than the next byte, an end of
a transmission, or a host operation (R62). -/
def InGap (tLast time : Word) (e : Event) : Prop :=
  (∃ u, e = .tick u ∧ (u - tLast).toNat ≤ (time - tLast).toNat) ∨ (∃ u, e = .txComplete u) ∨
    ∃ u sel args, e = .host u sel args

/-- What the gap before a byte at `time` can make of the frame in progress at `s`: its bytes and the time of the last one stay,
and the buffer is emptied only if the gap is a silence (R61, R62). -/
structure FrameInGap (s : State) (time : Word) (u : State) : Prop where
  params : u.params = s.params
  buf : u.framer.buf = s.framer.buf
  tLast : u.framer.tLast = s.framer.tLast
  len : u.framer.len = s.framer.len ∨ u.framer.len = 0 ∧ 5 ≤ (time - s.framer.tLast).toNat

variable {s t u : State} {time now : Word} {e : Event} {es rest tail : List Event} {b : Byte}

theorem nextAddress_of_lt (h : (time - s.framer.tLast).toNat < 5) : nextAddress s time = s.framer.len :=
  if_neg (Nat.not_le.mpr h)

theorem nextAddress_of_le (h : 5 ≤ (time - s.framer.tLast).toNat) : nextAddress s time = 0 := if_pos h

theorem nextAddress_le (s : State) (time : Word) : nextAddress s time ≤ s.framer.len := by
  unfold nextAddress
  split <;> omega

/-- The framer's part empties the buffer exactly when the silence has elapsed, and leaves its bytes and the time of the last
one (R61, R65). -/
theorem closeIfSilent_framer (hcap : s.framer.len ≤ s.params.frameCap) (h : closeIfSilent s = .next t) :
    t.framer.buf = s.framer.buf ∧ t.framer.tLast = s.framer.tLast ∧ t.framer.len = nextAddress s s.now := by
  rcases closeIfSilent_cases hcap h with ⟨hidle, rfl⟩ | ⟨⟨-, hsil⟩, rfl⟩
  · refine ⟨rfl, rfl, ?_⟩
    simp only [silent_eq, decide_eq_true_eq] at hidle
    unfold nextAddress
    split <;> omega
  · obtain ⟨-, -, -, -, hframer, -⟩ := processFrame_keeps ((List.range s.framer.len).map (memoryRead s.framer.buf))
      s.framer.echoAcc { s with framer := { s.framer with len := 0, echoAcc := false } }
    rw [hframer, nextAddress_of_le (of_decide_eq_true hsil)]
    exact ⟨rfl, rfl, rfl⟩

theorem txComplete_framer (time : Word) (s : State) : (txComplete time s).framer = s.framer := by
  unfold txComplete
  split <;> rfl

/-- A run whose first step goes on is the run from where it leads. -/
theorem run_succ {M : Host.Core} {s t : M.State} (k : Nat) (h : M.step s = .next t) : M.run (k + 1) s = M.run k t := by
  rw [Host.Core.run, h]

namespace FrameInGap

theorem refl (s : State) (time : Word) : FrameInGap s time s := ⟨rfl, rfl, rfl, .inl rfl⟩

theorem of_framer (h : FrameInGap s time u) (hparams : t.params = u.params) (hframer : t.framer = u.framer) :
    FrameInGap s time t where
  params := hparams.trans h.params
  buf := by rw [hframer, h.buf]
  tLast := by rw [hframer, h.tLast]
  len := by rw [hframer]; exact h.len

theorem len_le (h : FrameInGap s time u) (hcap : s.framer.len ≤ s.params.frameCap) :
    u.framer.len ≤ u.params.frameCap := by
  rw [h.params]
  rcases h.len with hlen | ⟨hlen, -⟩ <;> omega

/-- A frame already closed makes no difference to where the next byte goes. -/
theorem nextAddress_eq (h : FrameInGap s time u) : nextAddress u time = nextAddress s time := by
  unfold nextAddress
  rw [h.tLast]
  rcases h.len with hlen | ⟨hlen, hsil⟩
  · rw [hlen]
  · rw [if_pos hsil, if_pos hsil]

/-- The framer's part of a tick not later than the next byte keeps the frame, or closes it in a silence. -/
theorem close (h : FrameInGap s time u) (hcap : s.framer.len ≤ s.params.frameCap)
    (hnow : (now - s.framer.tLast).toNat ≤ (time - s.framer.tLast).toNat)
    (hc : closeIfSilent (presented u now rest) = .next t) : FrameInGap s time t := by
  obtain ⟨hparams, -⟩ := closeIfSilent_keeps hc
  obtain ⟨hbuf, htLast, hlen⟩ := closeIfSilent_framer (s := presented u now rest) (h.len_le hcap) hc
  have hlenNow : t.framer.len = nextAddress u now := hlen
  refine ⟨hparams.trans h.params, hbuf.trans h.buf, htLast.trans h.tLast, ?_⟩
  by_cases hsil : 5 ≤ (now - u.framer.tLast).toNat
  · rw [hlenNow, nextAddress_of_le hsil]
    rw [h.tLast] at hsil
    exact .inr ⟨rfl, hsil.trans hnow⟩
  · rw [hlenNow, nextAddress_of_lt (Nat.lt_of_not_le hsil)]
    exact h.len

/-- An event of the gap is taken, and leaves the frame as the gap can. -/
theorem event (h : FrameInGap s time u) (hcap : s.framer.len ≤ s.params.frameCap) (hi : u.inputs = e :: rest)
    (he : InGap s.framer.tLast time e) : ∃ v, step u = .next v ∧ FrameInGap s time v := by
  rcases he with ⟨now, rfl, hnow⟩ | ⟨now, rfl⟩ | ⟨now, sel, args, rfl⟩
  · obtain ⟨mid, hmid⟩ := closeIfSilent_runs (s := presented u now rest) (h.len_le hcap)
    obtain ⟨hparams, -, -, hframer⟩ := tickSend_keeps mid
    exact ⟨tickSend mid, step_tick hi hmid, (h.close hcap hnow hmid).of_framer hparams hframer⟩
  · exact ⟨_, step_event hi, h.of_framer (sameRun_txComplete now _).params (txComplete_framer now _)⟩
  · obtain ⟨v, hv⟩ := exec_runs (decodeHost sel args) (presented u now rest)
    exact ⟨v, (step_event hi).trans hv, h.of_framer (exec_keeps hv).params (exec_keeps hv).framer⟩

/-- A run through the events of the gap reaches the next byte with the frame as the gap can leave it. -/
theorem run_events (h : FrameInGap s time u) (hcap : s.framer.len ≤ s.params.frameCap) (hi : u.inputs = es ++ tail)
    (hes : ∀ e ∈ es, InGap s.framer.tLast time e) :
    ∃ v, FrameInGap s time v ∧ v.inputs = tail ∧ ∀ k, core.run (es.length + k) u = core.run k v := by
  induction es generalizing u with
  | nil => exact ⟨u, h, hi, fun k => by rw [List.length_nil, Nat.zero_add]⟩
  | cons e es ih =>
    obtain ⟨hhead, htail⟩ := List.forall_mem_cons.mp hes
    obtain ⟨w, hstep, hw⟩ := h.event hcap hi hhead
    obtain ⟨-, hinputs⟩ := parametersNeverChange u w hstep
    obtain ⟨v, hv, hvi, hrun⟩ := ih hw (by rw [hinputs, hi]; rfl) htail
    refine ⟨v, hv, hvi, fun k => ?_⟩
    rw [List.length_cons, Nat.succ_add, run_succ (M := core) _ hstep, hrun]

/-- The byte after the gap is stored at its address, where the frame in progress left room for it (R63). -/
theorem byte (h : FrameInGap s time u) (hroom : s.framer.len < s.params.frameCap)
    (hi : u.inputs = .rxByte time b :: rest) :
    ∃ v, step u = .next v ∧ v.framer.tLast = time ∧ v.framer.len = nextAddress s time + 1 ∧
      v.framer.buf = memoryWrite s.framer.buf (nextAddress s time) b := by
  obtain ⟨mid, hmid⟩ := closeIfSilent_runs (s := presented u time rest) (h.len_le hroom.le)
  obtain ⟨hparams, -, -, hnow, -⟩ := closeIfSilent_keeps hmid
  obtain ⟨hbuf, -, hlen⟩ := closeIfSilent_framer (s := presented u time rest) (h.len_le hroom.le) hmid
  have haddr : mid.framer.len = nextAddress s time := hlen.trans h.nextAddress_eq
  have hmidRoom : mid.framer.len < mid.params.frameCap := by
    rw [haddr, hparams.trans h.params]
    exact (nextAddress_le s time).trans_lt hroom
  refine ⟨_, (step_rxByte hi hmid).trans (storeByte_room (s := noteByte mid) b hmidRoom), hnow, ?_, ?_⟩
  · exact congrArg (· + 1) haddr
  · rw [← haddr, ← hbuf.trans h.buf]
    rfl

end FrameInGap

/-- Settles O47: the events of the gap keep the frame or close it in a silence, so that the byte is stored behind it or at
address 0. -/
theorem gapDecidesTheFrame : Obligations.GapDecidesTheFrame := by
  intro s es t b rest hi hwf _ hroom hes
  obtain ⟨u, hu, hui, hrun⟩ := (FrameInGap.refl s t).run_events hroom.le hi hes
  obtain ⟨v, hstep, htLast, hlen, hbuf⟩ := hu.byte hroom hui
  obtain ⟨-, hinputs⟩ := parametersNeverChange u v hstep
  refine ⟨v, (hrun 1).trans (run_succ (M := core) 0 hstep), by rw [hinputs, hui]; rfl, htLast, fun hgap => ?_, fun hgap => ?_⟩
  · rw [hlen, hbuf, nextAddress_of_lt hgap]
    exact ⟨rfl, memoryRead_write_self hwf _ b, fun a ha => memoryRead_write_ne _ b ha.ne⟩
  · rw [hlen, hbuf, nextAddress_of_le hgap]
    exact ⟨rfl, memoryRead_write_self hwf 0 b⟩

end Sys2Proof.Machine

/-! ### The checksum -/

namespace Sys2Proof.Machine

theorem foldl_sub_eq_sub_sum {G : Type*} [AddCommGroup G] (l : List G) (a : G) :
    l.foldl (fun acc x => acc - x) a = a - l.sum := by
  induction l generalizing a with
  | nil => rw [List.foldl_nil, List.sum_nil, sub_zero]
  | cons x xs ih => rw [List.foldl_cons, ih, List.sum_cons, sub_sub]

/-- The subtractions of R68 take away byte 2 and the sum of all bytes, whatever the number of bytes. -/
theorem checksum_eq_sub_sum (b : List Byte) : checksum b = -b.getD 2 0 - b.sum - 1 := by
  have hdouble : b.getD 2 0 <<< 1 = 2 * b.getD 2 0 := by
    generalize b.getD 2 0 = x
    bv_omega
  simp only [checksum, foldl_sub_eq_sub_sum, List.sum_reverse, hdouble]
  ring

/-- Byte 2 and the others make up the sum of all bytes. -/
theorem getD_add_sum_eraseIdx {b : List Byte} (h : 2 < b.length) : b.getD 2 0 + (b.eraseIdx 2).sum = b.sum := by
  rw [List.getD_eq_getElem b 0 h]
  exact List.CommMonoid.add_sum_eraseIdx h

/-- Settles O7: both forms are rearrangements of the sum the subtractions come to. -/
theorem checksumHasClosedForm : Obligations.ChecksumHasClosedForm := by
  intro b hlen
  rw [checksum_eq_sub_sum]
  constructor
  · rw [← getD_add_sum_eraseIdx (b := b) (by omega)]
    ring
  · have hnot : ~~~(b.getD 2 0 + b.sum) = -(b.getD 2 0 + b.sum) - 1 := BitVec.not_eq_neg_add _
    rw [hnot]
    ring

end Sys2Proof.Machine

/-! ### Setpoints in half-degrees and in deci-degrees -/

namespace Sys2Proof.Machine

/-- The rounding error is at most a half (R14). -/
theorem rha_bounds (num : Int) {den : Nat} (h : 0 < den) :
    2 * num - den ≤ 2 * den * rha num den ∧ 2 * den * rha num den ≤ 2 * num + den := by
  have hquot (n : Int) : n - 2 * den < 2 * den * (n / (2 * den)) ∧ 2 * den * (n / (2 * den)) ≤ n :=
    ⟨by linarith [Int.lt_mul_ediv_self_add (x := n) (k := 2 * den) (by omega)], Int.mul_ediv_self_le (by omega)⟩
  unfold rha
  split_ifs
  · obtain ⟨hlo, hhi⟩ := hquot (2 * num + den)
    constructor <;> linarith
  · obtain ⟨hlo, hhi⟩ := hquot (2 * -num + den)
    constructor <;> linarith

theorem spFromTemp_bounds (d : Int) : -2 ≤ 5 * spFromTemp d - d ∧ 5 * spFromTemp d - d ≤ 2 := by
  obtain ⟨hlo, hhi⟩ := rha_bounds d (den := 5) (by decide)
  unfold spFromTemp
  omega

theorem spFromTemp_tempFromSp (k : Int) : spFromTemp (tempFromSp k) = k := by
  obtain ⟨hlo, hhi⟩ := spFromTemp_bounds (tempFromSp k)
  unfold tempFromSp at *
  omega

theorem decodeFrame_masterSetpoint (rules : List BcastRule) (v : Byte) :
    decodeFrame rules [0x3A, v] = .masterSetpoint v := rfl

theorem decodeFrame_customZoneSetpoint (rules : List BcastRule) (z v : Byte) :
    decodeFrame rules [0x3F, z, v] = .customZoneSetpoint z v := rfl

theorem low6_toNat (b : Byte) : (b.extractLsb' 0 6).toNat = b.toNat % 64 := by
  rw [BitVec.extractLsb'_toNat, Nat.shiftRight_zero]

/-- Settles O12: rounding errs by at most a half, and the views read the half-degrees off their bytes. -/
theorem setpointRoundTrips : Obligations.SetpointRoundTrips := by
  refine ⟨spFromTemp_bounds, spFromTemp_tempFromSp, fun rules v z => ⟨?_, ?_⟩, fun _ _ _ => rfl, fun b1 b2 b3 b4 b5 => ?_⟩
  · rw [decodeFrame_masterSetpoint]
    rfl
  · rw [decodeFrame_customZoneSetpoint]
    rfl
  · simp only [mtzSetpoint, mtzMinSetpoint, mtzMaxSetpoint, parseMtzBits, low6_toNat, tempFromSp]
    omega

end Sys2Proof.Machine

/-! ### The ROM as a curve

Two evaluations tie the tables to the curve of R72 to R74: each entry of the ROM is its value, and each entry of table 3 is
compared with it nearby. The order, the inverse and its roundings follow from the slope of the curve. -/

namespace Sys2Proof.Machine

/-- Ten times the quadratic of the hot branch, over 10^7 (R73). -/
def hotNum (r : Int) : Int := 7124 * r ^ 2 - 10520000 * r + 2450000000

/-- Ten times the quadratic of the cold branch, over 10^7 (R74). -/
def coldNum (r : Int) : Int := -1457 * r ^ 2 - 9880000 * r + 2492300000

/-- The temperature of a raw value by the three branches (R72, R73, R74). -/
def romCurve (raw : Int) : Int :=
  if raw < -58 then rha (hotNum raw) 10000000
  else if raw ≤ 81 then 250 - raw
  else rha (coldNum raw) 10000000

variable {r d : Int}

theorem romCurve_hot (h : r < -58) : romCurve r = rha (hotNum r) 10000000 := if_pos h

theorem romCurve_linear (hlo : -58 ≤ r) (hhi : r ≤ 81) : romCurve r = 250 - r := by
  rw [romCurve, if_neg (by omega), if_pos hhi]

theorem romCurve_cold (h : 81 < r) : romCurve r = rha (coldNum r) 10000000 := by
  rw [romCurve, if_neg (by omega), if_neg (by omega)]

/-- The 1024 entries of tables 1 and 2, evaluated (R146). -/
theorem rom_eq_map_romCurve : rom = (List.range 1024).map fun k : Nat => romCurve ((k : Int) - 512) := by
  decide +kernel

theorem tempFromRaw_eq_romCurve (hlo : -512 ≤ r) (hhi : r ≤ 511) : tempFromRaw r = romCurve r := by
  have hlt : (r + 512).toNat < 1024 := by omega
  have hr : ((r + 512).toNat : Int) - 512 = r := by omega
  simp only [tempFromRaw, rom_eq_map_romCurve, List.getD_eq_getElem?_getD, List.getElem?_map, List.getElem?_range hlt,
    Option.map_some, Option.getD_some, hr]

/-- The raw values the ROM holds a temperature for (R71). -/
abbrev rawRange : Set Int := Set.Icc (-512) 511

theorem mem_rom_iff : d ∈ rom ↔ ∃ r ∈ rawRange, tempFromRaw r = d := by
  rw [rom_eq_map_romCurve, List.mem_map]
  constructor
  · rintro ⟨k, hk, rfl⟩
    have hk : k < 1024 := List.mem_range.mp hk
    exact ⟨(k : Int) - 512, ⟨by omega, by omega⟩, tempFromRaw_eq_romCurve (by omega) (by omega)⟩
  · rintro ⟨r, ⟨hlo, hhi⟩, rfl⟩
    refine ⟨(r + 512).toNat, List.mem_range.mpr (by omega), ?_⟩
    rw [tempFromRaw_eq_romCurve hlo hhi]
    congr 1
    omega

/-- Settles O8: the three branches are the curve the ROM was evaluated against. -/
theorem romFollowsTheBranches : Obligations.RomFollowsTheBranches :=
  ⟨fun _ hlo hhi => tempFromRaw_eq_romCurve hlo hhi, by decide +kernel, by decide +kernel, by decide +kernel, by decide +kernel,
    by decide +kernel, by decide +kernel⟩

/-! ### The curve decreases -/

/-- Numerators more than a denominator apart round to different integers. -/
theorem rha_lt_rha {num num' : Int} {den : Nat} (hden : 0 < den) (h : num' + den < num) : rha num' den < rha num den := by
  obtain ⟨-, hhi⟩ := rha_bounds num' hden
  obtain ⟨hlo, -⟩ := rha_bounds num hden
  have hscaled : 2 * (den : Int) * rha num' den < 2 * den * rha num den := by linarith
  exact lt_of_mul_lt_mul_left hscaled (by omega)

/-- Both outer branches fall by more than a tenth of a degree per step, and the joints fall by two (R73, R74). -/
theorem romCurve_add_one_lt (r : Int) : romCurve (r + 1) < romCurve r := by
  have hden : (0 : Nat) < 10000000 := by decide
  rcases lt_trichotomy r (-59) with hr | rfl | hr
  · rw [romCurve_hot (by omega), romCurve_hot (by omega)]
    refine rha_lt_rha hden ?_
    unfold hotNum
    push_cast
    linarith
  · decide +kernel
  · rcases lt_trichotomy r 81 with hr' | rfl | hr'
    · rw [romCurve_linear (by omega) (by omega), romCurve_linear (by omega) (by omega)]
      omega
    · decide +kernel
    · rw [romCurve_cold (by omega), romCurve_cold (by omega)]
      refine rha_lt_rha hden ?_
      unfold coldNum
      push_cast
      linarith

/-- R75, on the raw values the ROM has. -/
theorem tempFromRaw_strictAntiOn : StrictAntiOn tempFromRaw rawRange := by
  intro r hr r' hr' hlt
  rw [tempFromRaw_eq_romCurve hr.1 hr.2, tempFromRaw_eq_romCurve hr'.1 hr'.2]
  exact strictAnti_int_of_succ_lt romCurve_add_one_lt hlt

theorem tempFromRaw_bounds (h : r ∈ rawRange) : -294 ≤ tempFromRaw r ∧ tempFromRaw r ≤ 970 := by
  obtain ⟨-, hfirst, -, -, -, -, hlast⟩ := romFollowsTheBranches
  have hanti := tempFromRaw_strictAntiOn.antitoneOn
  constructor
  · rw [← hlast]
    exact hanti h ⟨by omega, by omega⟩ h.2
  · rw [← hfirst]
    exact hanti ⟨by omega, by omega⟩ h h.1

/-! ### Table 3 -/

/-- Four times ten times the quadratic of the branch of `d`, at `k / 2`, over 10^7: an integer on the half-integers, where
roundings change (R76). -/
def halfNum (d k : Int) : Int :=
  if 309 ≤ d then 7124 * k ^ 2 - 21040000 * k + 9800000000 else -1457 * k ^ 2 - 19760000 * k + 9969200000

/-- `d` lies between the values the quadratic of its branch has half a step to either side of `r` (R76). -/
def Brackets (d r : Int) : Prop := halfNum d (2 * r + 1) < 40000000 * d ∧ 40000000 * d < halfNum d (2 * r - 1)

/-- What an entry of table 3 is: a temperature passed over between `r` and a neighbour, a tenth of a degree from that of `r`,
and on whose branch `r` is the nearest raw value (R75, R76, R77). -/
structure GapEntry (d r : Int) : Prop where
  inner : -511 ≤ r ∧ r ≤ 510
  passed : romCurve r + 1 = d ∧ d < romCurve (r - 1) ∨ romCurve r - 1 = d ∧ romCurve (r + 1) < d
  brackets : Brackets d r

theorem gapEntry_iff : GapEntry d r ↔ (-511 ≤ r ∧ r ≤ 510) ∧
    (romCurve r + 1 = d ∧ d < romCurve (r - 1) ∨ romCurve r - 1 = d ∧ romCurve (r + 1) < d) ∧
    halfNum d (2 * r + 1) < 40000000 * d ∧ 40000000 * d < halfNum d (2 * r - 1) :=
  ⟨fun h => ⟨h.inner, h.passed, h.brackets⟩, fun ⟨hinner, hpassed, hbrackets⟩ => ⟨hinner, hpassed, hbrackets⟩⟩

/-- The 241 entries of table 3, evaluated (R147). -/
theorem gapEntry_of_mem {p : Int × Int} (hp : p ∈ romGaps) : GapEntry p.1 p.2 := by
  rw [gapEntry_iff]
  revert p
  decide +kernel

/-- The temperatures of table 3, in their order. -/
theorem romGaps_sorted : (romGaps.map Prod.fst).Pairwise (· < ·) := by
  rw [← List.isChain_iff_pairwise]
  decide +kernel

theorem romGaps_length : romGaps.length = 241 := by decide +kernel

theorem GapEntry.mem_rawRange (h : GapEntry d r) : r ∈ rawRange :=
  ⟨by linarith [h.inner.1], by linarith [h.inner.2]⟩

/-- A passed temperature lies strictly between two neighbouring entries of the ROM. -/
theorem GapEntry.between (h : GapEntry d r) :
    ∃ q ∈ rawRange, q + 1 ∈ rawRange ∧ tempFromRaw (q + 1) < d ∧ d < tempFromRaw q := by
  obtain ⟨⟨hlo, hhi⟩, hpassed, -⟩ := h
  rcases hpassed with ⟨hr, hprev⟩ | ⟨hr, hnext⟩
  · refine ⟨r - 1, ⟨by omega, by omega⟩, ⟨by omega, by omega⟩, ?_⟩
    rw [tempFromRaw_eq_romCurve (by omega) (by omega), tempFromRaw_eq_romCurve (by omega) (by omega), sub_add_cancel]
    omega
  · refine ⟨r, ⟨by omega, by omega⟩, ⟨by omega, by omega⟩, ?_⟩
    rw [tempFromRaw_eq_romCurve (by omega) (by omega), tempFromRaw_eq_romCurve (by omega) (by omega)]
    omega

/-- No raw value has a passed temperature: the curve is strictly decreasing. -/
theorem GapEntry.ne_tempFromRaw (h : GapEntry d r) {q : Int} (hq : q ∈ rawRange) : tempFromRaw q ≠ d := by
  rintro rfl
  obtain ⟨p, hp, hp', hlow, hhigh⟩ := h.between
  have hlt := (tempFromRaw_strictAntiOn.lt_iff_gt hp' hq).mp hlow
  have hgt := (tempFromRaw_strictAntiOn.lt_iff_gt hq hp).mp hhigh
  omega

theorem GapEntry.bounds (h : GapEntry d r) : -294 ≤ d ∧ d ≤ 970 := by
  obtain ⟨q, hq, hq', hlow, hhigh⟩ := h.between
  have hlo := (tempFromRaw_bounds hq').1
  have hhi := (tempFromRaw_bounds hq).2
  omega

theorem GapEntry.tempFromRaw_eq (h : GapEntry d r) : tempFromRaw r = d - 1 ∨ tempFromRaw r = d + 1 := by
  rw [tempFromRaw_eq_romCurve h.mem_rawRange.1 h.mem_rawRange.2]
  rcases h.passed with ⟨hr, -⟩ | ⟨hr, -⟩ <;> omega

theorem gapEntry_of_mem_temps (h : d ∈ romGaps.map Prod.fst) : ∃ r, GapEntry d r := by
  obtain ⟨⟨_, r⟩, hp, rfl⟩ := List.mem_map.mp h
  exact ⟨r, gapEntry_of_mem hp⟩

/-- The 1024 temperatures of the ROM and the 241 of table 3 are as many as there are in -294..970. -/
theorem image_union_gaps :
    (Finset.Icc (-512) 511).image tempFromRaw ∪ (romGaps.map Prod.fst).toFinset = Finset.Icc (-294) 970 := by
  have hinj : Set.InjOn tempFromRaw (Finset.Icc (-512 : Int) 511) := by
    rw [Finset.coe_Icc]
    exact tempFromRaw_strictAntiOn.injOn
  have hdisj : Disjoint ((Finset.Icc (-512) 511).image tempFromRaw) (romGaps.map Prod.fst).toFinset := by
    refine Finset.disjoint_left.mpr fun d himage hgap => ?_
    obtain ⟨r, hr, rfl⟩ := Finset.mem_image.mp himage
    obtain ⟨_, hentry⟩ := gapEntry_of_mem_temps (List.mem_toFinset.mp hgap)
    exact hentry.ne_tempFromRaw (Finset.mem_Icc.mp hr) rfl
  refine Finset.eq_of_subset_of_card_le (Finset.union_subset ?_ ?_) ?_
  · exact Finset.image_subset_iff.mpr fun r hr => Finset.mem_Icc.mpr (tempFromRaw_bounds (Finset.mem_Icc.mp hr))
  · intro d hd
    obtain ⟨_, hentry⟩ := gapEntry_of_mem_temps (List.mem_toFinset.mp hd)
    exact Finset.mem_Icc.mpr hentry.bounds
  · rw [Finset.card_union_of_disjoint hdisj, Finset.card_image_of_injOn hinj,
      List.toFinset_card_of_nodup (romGaps_sorted.imp ne_of_lt), List.length_map, romGaps_length, Int.card_Icc, Int.card_Icc]
    decide

/-- A temperature in -294..970 is in the image of the ROM exactly when table 3 does not have it (R75). -/
theorem mem_image_iff_not_gap (hlo : -294 ≤ d) (hhi : d ≤ 970) :
    (∃ r ∈ rawRange, tempFromRaw r = d) ↔ d ∉ romGaps.map Prod.fst := by
  constructor
  · rintro ⟨r, hr, hd⟩ hgap
    obtain ⟨_, hentry⟩ := gapEntry_of_mem_temps hgap
    exact hentry.ne_tempFromRaw hr hd
  · intro hgap
    have hd : d ∈ (Finset.Icc (-512) 511).image tempFromRaw ∪ (romGaps.map Prod.fst).toFinset := by
      rw [image_union_gaps]
      exact Finset.mem_Icc.mpr ⟨hlo, hhi⟩
    rcases Finset.mem_union.mp hd with himage | hd
    · obtain ⟨r, hr, hrd⟩ := Finset.mem_image.mp himage
      exact ⟨r, Finset.mem_Icc.mp hr, hrd⟩
    · exact absurd (List.mem_toFinset.mp hd) hgap

/-- Settles O9: the slope of the curve gives the order, and a count the temperatures it passes over. -/
theorem romStrictlyDecreases : Obligations.RomStrictlyDecreases := by
  refine ⟨fun r r' hlo hlt hhi => tempFromRaw_strictAntiOn ⟨hlo, by omega⟩ ⟨by omega, hhi⟩ hlt, fun d hlo hhi => ?_,
    fun r hlo hhi => tempFromRaw_bounds ⟨hlo, hhi⟩, romGaps_length, romGaps_sorted.imp ne_of_lt, by decide +kernel,
    by decide +kernel⟩
  rw [← mem_image_iff_not_gap hlo hhi]
  simp only [Set.mem_Icc, and_assoc]

/-! ### The inverse of the ROM -/

theorem romFind_eq_none_iff {vs : List Int} {q : Int} : romFind d vs q = none ↔ d ∉ vs := by
  induction vs generalizing q with
  | nil => simp [romFind]
  | cons v vs ih =>
    by_cases hv : v = d
    · simp [romFind, hv]
    · simp [romFind, hv, ih, Ne.symm hv]

/-- What the search finds is an entry with the temperature asked for. -/
theorem romFind_eq_some {vs : List Int} {q : Int} (h : romFind d vs q = some r) :
    q ≤ r ∧ r < q + vs.length ∧ vs.getD (r - q).toNat 0 = d := by
  induction vs generalizing q with
  | nil => cases h
  | cons v vs ih =>
    rw [List.length_cons]
    by_cases hv : v = d
    · rw [romFind, if_pos hv, Option.some.injEq] at h
      subst h
      refine ⟨le_rfl, by omega, ?_⟩
      rw [sub_self]
      exact hv
    · rw [romFind, if_neg hv] at h
      obtain ⟨hlo, hhi, hget⟩ := ih h
      have hsucc : (r - q).toNat = (r - (q + 1)).toNat + 1 := by omega
      refine ⟨by omega, by omega, ?_⟩
      rw [hsucc, List.getD_cons_succ]
      exact hget

theorem gapFind_eq_none_iff {ps : List (Int × Int)} : gapFind d ps = none ↔ d ∉ ps.map Prod.fst := by
  induction ps with
  | nil => simp [gapFind]
  | cons p ps ih =>
    by_cases hp : p.1 = d
    · simp [gapFind, hp]
    · simp [gapFind, hp, ih, Ne.symm hp]

theorem mem_of_gapFind_eq_some {ps : List (Int × Int)} (h : gapFind d ps = some r) : (d, r) ∈ ps := by
  induction ps with
  | nil => cases h
  | cons p ps ih =>
    by_cases hp : p.1 = d
    · rw [gapFind, if_pos hp, Option.some.injEq] at h
      rw [← hp, ← h]
      exact List.mem_cons_self
    · rw [gapFind, if_neg hp] at h
      exact List.mem_cons_of_mem p (ih h)

theorem rawFromTemp_linear (hlo : 169 ≤ d) (hhi : d ≤ 308) : rawFromTemp d = 250 - d := if_pos ⟨hlo, hhi⟩

theorem rawFromTemp_hottest (h : 971 ≤ d) : rawFromTemp d = -512 := by
  rw [rawFromTemp, if_neg (by omega), if_pos h]

theorem rawFromTemp_coldest (h : d ≤ -295) : rawFromTemp d = 511 := by
  rw [rawFromTemp, if_neg (by omega), if_neg (by omega), if_pos h]

/-- Inside -294..970 the inverse finds a raw value of that temperature, or else the entry of table 3 (R147). -/
theorem rawFromTemp_cases (hlo : -294 ≤ d) (hhi : d ≤ 970) :
    rawFromTemp d ∈ rawRange ∧ tempFromRaw (rawFromTemp d) = d ∨ GapEntry d (rawFromTemp d) := by
  by_cases hlin : 169 ≤ d ∧ d ≤ 308
  · obtain ⟨hlo', hhi'⟩ := hlin
    rw [rawFromTemp_linear hlo' hhi', tempFromRaw_eq_romCurve (by omega) (by omega),
      romCurve_linear (by omega) (by omega)]
    exact .inl ⟨⟨by omega, by omega⟩, by omega⟩
  · rw [rawFromTemp, if_neg hlin, if_neg (by omega), if_neg (by omega)]
    cases hrom : romFind d rom (-512) with
    | some r =>
      obtain ⟨hmin, hmax, hget⟩ := romFind_eq_some hrom
      rw [rom_eq_map_romCurve, List.length_map, List.length_range] at hmax
      rw [sub_neg_eq_add] at hget
      exact .inl ⟨⟨hmin, Int.le_of_lt_add_one hmax⟩, hget⟩
    | none =>
      rw [romFind_eq_none_iff, mem_rom_iff, mem_image_iff_not_gap hlo hhi, not_not] at hrom
      cases hgap : gapFind d romGaps with
      | some r => exact .inr (gapEntry_of_mem (mem_of_gapFind_eq_some hgap))
      | none => exact absurd hrom (gapFind_eq_none_iff.mp hgap)

/-- The inverse is exact on the image (R77 a). -/
theorem rawFromTemp_tempFromRaw (h : r ∈ rawRange) : rawFromTemp (tempFromRaw r) = r := by
  obtain ⟨hlo, hhi⟩ := tempFromRaw_bounds h
  rcases rawFromTemp_cases hlo hhi with ⟨hmem, heq⟩ | hentry
  · exact tempFromRaw_strictAntiOn.injOn hmem h heq
  · exact absurd rfl (hentry.ne_tempFromRaw h)

/-- Settles O10: on the image by injectivity, and off it by the entries of table 3. -/
theorem temperatureRoundTrips : Obligations.TemperatureRoundTrips := by
  refine ⟨fun r hlo hhi => rawFromTemp_tempFromRaw ⟨hlo, hhi⟩, fun d hlo hhi => ?_⟩
  have hgap := mem_image_iff_not_gap hlo hhi
  rcases rawFromTemp_cases hlo hhi with ⟨hmem, heq⟩ | hentry
  · have hnot : d ∉ romGaps.map Prod.fst := hgap.mp ⟨_, hmem, heq⟩
    simp [heq, hnot]
  · have hin : d ∈ romGaps.map Prod.fst :=
      not_not.mp fun hnot => (hgap.mpr hnot).elim fun q hq => hentry.ne_tempFromRaw hq.1 hq.2
    have hnear := hentry.tempFromRaw_eq
    exact ⟨by omega, by omega, iff_of_true (by omega) hin⟩

end Sys2Proof.Machine

/-! ### The inverse as a rounded root

The root of a branch lies on the side of a half-integer that the sign of the quadratic there says, so that what it rounds to is
decided by integers. -/

namespace Sys2Proof.Machine

/-! #### The brackets of the inverse -/

section Brackets

variable {d r : Int}

theorem halfNum_hot (h : 309 ≤ d) (k : Int) : halfNum d k = 7124 * k ^ 2 - 21040000 * k + 9800000000 := if_pos h

theorem halfNum_cold (h : d ≤ 308) (k : Int) : halfNum d k = -1457 * k ^ 2 - 19760000 * k + 9969200000 :=
  if_neg (by omega)

theorem raw_hot_of_lt (hr : r ∈ rawRange) (h : 308 < tempFromRaw r) : r < -58 := by
  obtain ⟨-, -, -, hjoint, -⟩ := romFollowsTheBranches
  rw [← hjoint] at h
  exact (tempFromRaw_strictAntiOn.lt_iff_gt ⟨by omega, by omega⟩ hr).mp h

theorem raw_cold_of_lt (hr : r ∈ rawRange) (h : tempFromRaw r < 169) : 81 < r := by
  obtain ⟨-, -, -, -, hjoint, -⟩ := romFollowsTheBranches
  rw [← hjoint] at h
  exact (tempFromRaw_strictAntiOn.lt_iff_gt hr ⟨by omega, by omega⟩).mp h

/-- Half a step away, the quadratic is more than half a tenth of a degree away, and `d` is not (R73, R74). -/
theorem brackets_tempFromRaw (hr : r ∈ rawRange) (hout : tempFromRaw r < 169 ∨ 308 < tempFromRaw r) :
    Brackets (tempFromRaw r) r := by
  have hcurve := tempFromRaw_eq_romCurve hr.1 hr.2
  have hden : (0 : Nat) < 10000000 := by decide
  unfold Brackets
  rcases hout with hlow | hhigh
  · have hbranch := raw_cold_of_lt hr hlow
    rw [romCurve_cold hbranch] at hcurve
    obtain ⟨hlo, hhi⟩ := rha_bounds (coldNum r) hden
    rw [← hcurve, coldNum] at hlo hhi
    rw [halfNum_cold (by omega), halfNum_cold (by omega)]
    push_cast at hlo hhi
    constructor <;> linarith
  · have hbranch := raw_hot_of_lt hr hhigh
    rw [romCurve_hot hbranch] at hcurve
    obtain ⟨hlo, hhi⟩ := rha_bounds (hotNum r) hden
    rw [← hcurve, hotNum] at hlo hhi
    rw [halfNum_hot (by omega), halfNum_hot (by omega)]
    push_cast at hlo hhi
    constructor <;> linarith

/-- Off the linear range, the quadratic passes `d` within half a step of `RawFromTemp(d)` (R76). -/
theorem rawFromTemp_brackets (hlo : -294 ≤ d) (hhi : d ≤ 970) (hout : d < 169 ∨ 308 < d) :
    rawFromTemp d ∈ rawRange ∧ Brackets d (rawFromTemp d) := by
  rcases rawFromTemp_cases hlo hhi with ⟨hmem, heq⟩ | hentry
  · have hbrackets := brackets_tempFromRaw hmem (heq.symm ▸ hout)
    rw [heq] at hbrackets
    exact ⟨hmem, hbrackets⟩
  · exact ⟨hentry.mem_rawRange, hentry.brackets⟩

/-- At a half-integer the quadratic is never a tenth of an integer: one side is an odd multiple of 4, or odd. -/
theorem halfNum_odd_ne (d n : Int) : halfNum d (2 * n + 1) ≠ 40000000 * d := by
  have hsq : (2 * n + 1) ^ 2 = 4 * (n ^ 2 + n) + 1 := by ring
  rcases lt_or_ge 308 d with hd | hd
  · rw [halfNum_hot hd, hsq]
    omega
  · rw [halfNum_cold hd, hsq]
    omega

end Brackets

/-! #### A quadratic where it decreases -/

section Quadratic

variable {a b c t x y : ℝ}

/-- The root with the minus sign takes the value asked for, and the quadratic decreases there. -/
theorem quadratic_at_root (ha : a ≠ 0) (hdisc : 0 < b * b - 4 * a * (c - t))
    (hx : x = (-b - √(b * b - 4 * a * (c - t))) / (2 * a)) : a * x ^ 2 + b * x + c = t ∧ 2 * a * x + b < 0 := by
  have hroot : 2 * a * x + b = -√(b * b - 4 * a * (c - t)) := by
    rw [hx]
    field_simp
    ring
  have hsq : (2 * a * x + b) ^ 2 = b * b - 4 * a * (c - t) := by rw [hroot, neg_sq, Real.sq_sqrt hdisc.le]
  refine ⟨mul_left_cancel₀ (mul_ne_zero four_ne_zero ha) (by linear_combination hsq), ?_⟩
  rw [hroot]
  exact neg_neg_of_pos (Real.sqrt_pos.mpr hdisc)

/-- Between the root and any other point where the quadratic decreases, it is strictly decreasing. -/
theorem quadratic_lt_iff (hx : a * x ^ 2 + b * x + c = t) (hslope : 2 * a * x + b < 0) (hy : 2 * a * y + b < 0) :
    (a * y ^ 2 + b * y + c < t ↔ x < y) ∧ (t < a * y ^ 2 + b * y + c ↔ y < x) := by
  have hmean : 0 < -(a * (x + y) + b) := by linarith
  have hbelow : t - (a * y ^ 2 + b * y + c) = (y - x) * -(a * (x + y) + b) := by rw [← hx]; ring
  have habove : a * y ^ 2 + b * y + c - t = (x - y) * -(a * (x + y) + b) := by rw [← hx]; ring
  constructor
  · rw [← sub_pos, hbelow, mul_pos_iff_of_pos_right hmean, sub_pos]
  · rw [← sub_pos, habove, mul_pos_iff_of_pos_right hmean, sub_pos]

end Quadratic

/-! #### Rounding a real number -/

/-- `rha` of a real number (R14). -/
noncomputable def roundAway (x : ℝ) : Int := if 0 ≤ x then ⌊x + 1 / 2⌋ else -⌊-x + 1 / 2⌋

theorem roundAway_le {x : ℝ} {n : Int} (h : x < n + 1 / 2) : roundAway x ≤ n := by
  unfold roundAway
  split_ifs
  · rw [← Int.lt_add_one_iff, Int.floor_lt]
    push_cast
    linarith
  · rw [neg_le, Int.le_floor]
    push_cast
    linarith

theorem le_roundAway {x : ℝ} {n : Int} (h : (n : ℝ) - 1 / 2 < x) : n ≤ roundAway x := by
  unfold roundAway
  split_ifs
  · rw [Int.le_floor]
    linarith
  · rw [le_neg, ← Int.lt_add_one_iff, Int.floor_lt]
    push_cast
    linarith

/-! #### The root of a branch -/

/-- `a`, `b` and `c` are the coefficients of the branch of `d`, and `x` is its real root with the minus sign at `d` (R73, R74,
R76). -/
structure BranchRoot (d : Int) (a b c x : ℝ) : Prop where
  coeffs : (a, b, c) = if 309 ≤ d then (0.00007124, -0.1052, 24.5) else (-0.00001457, -0.0988, 24.923)
  root : x = (-b - √(b * b - 4 * a * (c - d / 10))) / (2 * a)

namespace BranchRoot

variable {d r k : Int} {a b c x : ℝ}

theorem branch (h : BranchRoot d a b c x) :
    309 ≤ d ∧ a = 0.00007124 ∧ b = -0.1052 ∧ c = 24.5 ∨ d ≤ 308 ∧ a = -0.00001457 ∧ b = -0.0988 ∧ c = 24.923 := by
  have hcoeffs := h.coeffs
  split_ifs at hcoeffs with hd <;> simp only [Prod.mk.injEq] at hcoeffs
  · exact .inl ⟨hd, hcoeffs⟩
  · exact .inr ⟨by omega, hcoeffs⟩

theorem leading_ne_zero (h : BranchRoot d a b c x) : a ≠ 0 := by
  rcases h.branch with ⟨-, rfl, -⟩ | ⟨-, rfl, -⟩ <;> norm_num

theorem discriminant_pos (h : BranchRoot d a b c x) : 0 < b * b - 4 * a * (c - d / 10) := by
  rcases h.branch with ⟨hd, rfl, rfl, rfl⟩ | ⟨hd, rfl, rfl, rfl⟩
  · have hd : (309 : ℝ) ≤ d := by exact_mod_cast hd
    linarith
  · have hd : (d : ℝ) ≤ 308 := by exact_mod_cast hd
    linarith

theorem halfNum_eq (h : BranchRoot d a b c x) (k : Int) :
    (halfNum d k : ℝ) = 400000000 * (a * (k / 2) ^ 2 + b * (k / 2) + c) := by
  rcases h.branch with ⟨hd, rfl, rfl, rfl⟩ | ⟨hd, rfl, rfl, rfl⟩
  · rw [halfNum_hot hd]
    push_cast
    ring
  · rw [halfNum_cold hd]
    push_cast
    ring

/-- Both quadratics decrease over the raw values, and half a step beyond. -/
theorem slope_neg (h : BranchRoot d a b c x) (hlo : -1025 ≤ k) (hhi : k ≤ 1023) : 2 * a * (k / 2) + b < 0 := by
  have hlo : (-1025 : ℝ) ≤ k := by exact_mod_cast hlo
  have hhi : (k : ℝ) ≤ 1023 := by exact_mod_cast hhi
  rcases h.branch with ⟨-, rfl, rfl, -⟩ | ⟨-, rfl, rfl, -⟩ <;> linarith

/-- On which side of a half-integer the root lies, by integers (R76). -/
theorem side_iff (h : BranchRoot d a b c x) (hlo : -1025 ≤ k) (hhi : k ≤ 1023) :
    (halfNum d k < 40000000 * d ↔ x < k / 2) ∧ (40000000 * d < halfNum d k ↔ (k / 2 : ℝ) < x) := by
  obtain ⟨hvalue, hslope⟩ := quadratic_at_root h.leading_ne_zero h.discriminant_pos h.root
  obtain ⟨hlt, hgt⟩ := quadratic_lt_iff hvalue hslope (h.slope_neg hlo hhi)
  rw [← hlt, ← hgt, ← @Int.cast_lt ℝ, ← @Int.cast_lt ℝ, h.halfNum_eq]
  push_cast
  constructor <;> constructor <;> intro hside <;> linarith

/-- The root is on no rounding tie: there the quadratic would be a tenth of an integer (R76). -/
theorem ne_tie (h : BranchRoot d a b c x) (n : Int) : x ≠ n + 1 / 2 := by
  rintro rfl
  obtain ⟨hvalue, -⟩ := quadratic_at_root h.leading_ne_zero h.discriminant_pos h.root
  refine halfNum_odd_ne d n ?_
  rw [← @Int.cast_inj ℝ, h.halfNum_eq]
  push_cast
  linear_combination 400000000 * hvalue

/-- A root between two half-integers rounds to the integer between them. -/
theorem roundAway_eq (h : BranchRoot d a b c x) (hr : r ∈ rawRange) (hd : Brackets d r) : roundAway x = r := by
  obtain ⟨hlo, hhi⟩ := hr
  obtain ⟨hnext, hprev⟩ := hd
  have hbelow := (h.side_iff (k := 2 * r + 1) (by omega) (by omega)).1.mp hnext
  have habove := (h.side_iff (k := 2 * r - 1) (by omega) (by omega)).2.mp hprev
  push_cast at hbelow habove
  exact le_antisymm (roundAway_le (by linarith)) (le_roundAway (by linarith))

/-- Above 97.0 degrees the root rounds to the first raw value, or below it. -/
theorem roundAway_le_of_hottest (h : BranchRoot d a b c x) (hd : 971 ≤ d) : roundAway x ≤ -512 := by
  have hside := (h.side_iff (k := -1023) (by omega) (by omega)).1.mp (by rw [halfNum_hot (by omega)]; omega)
  push_cast at hside
  refine roundAway_le ?_
  push_cast
  linarith

/-- Below -29.4 degrees the root rounds to the last raw value, or above it. -/
theorem le_roundAway_of_coldest (h : BranchRoot d a b c x) (hd : d ≤ -295) : 511 ≤ roundAway x := by
  have hside := (h.side_iff (k := 1021) (by omega) (by omega)).2.mp (by rw [halfNum_cold (by omega)]; omega)
  push_cast at hside
  refine le_roundAway ?_
  push_cast
  linarith

/-- `RawFromTemp` off the linear range is the rounded root, saturated (R76). -/
theorem rawFromTemp_eq (h : BranchRoot d a b c x) (hd : d < 169 ∨ 308 < d) :
    rawFromTemp d = clamp (roundAway x) (-512) 511 := by
  unfold clamp
  rcases lt_or_ge 970 d with hhot | hhi
  · have hround := h.roundAway_le_of_hottest hhot
    rw [rawFromTemp_hottest hhot]
    omega
  · rcases lt_or_ge d (-294) with hcold | hlo
    · have hround := h.le_roundAway_of_coldest (by omega)
      rw [rawFromTemp_coldest (by omega)]
      omega
    · obtain ⟨hmem, hbrackets⟩ := rawFromTemp_brackets hlo hhi hd
      rw [h.roundAway_eq hmem hbrackets]
      obtain ⟨hmin, hmax⟩ := hmem
      omega

end BranchRoot

theorem low10OfTemp_toNat (d : Half) : ((low10OfTemp d).toNat : Int) = rawFromTemp d.toInt % 1024 := by
  rw [low10OfTemp, BitVec.toNat_ofInt]
  omega

/-- Settles O11: the root is bracketed by the half-integers around the raw value, and never on one. -/
theorem rawFromTempIsTheRoundedRoot : Obligations.RawFromTempIsTheRoundedRoot := by
  refine ⟨fun d a b c x _ _ hcoeffs hroot => ?_, low10OfTemp_toNat⟩
  have h : BranchRoot d a b c x := ⟨hcoeffs, hroot⟩
  refine ⟨?_, h.discriminant_pos, h.ne_tie⟩
  by_cases hlinear : 169 ≤ d ∧ d ≤ 308
  · rw [if_pos hlinear]
    exact rawFromTemp_linear hlinear.1 hlinear.2
  · rw [if_neg hlinear]
    exact h.rawFromTemp_eq (by omega)

end Sys2Proof.Machine

/-! ### The response a zone owes -/

namespace Sys2Proof

/-- The zones are listed in rising order. -/
theorem Zone.all_split (z : Zone) : ∃ before after, Zone.all = before ++ z :: after ∧ ∀ z' ∈ before, z'.number < z.number :=
  ⟨Zone.all.take (z.number - 1), Zone.all.drop z.number, by cases z <;> rfl, by cases z <;> decide⟩

end Sys2Proof

namespace Sys2Proof.Machine

/-! #### The bytes of a response -/

/-- The tag byte of a zone's wall frame, as R95 writes it. -/
theorem wallTag_eq (z : Zone) : 0xC#4 ++ BitVec.ofNat 4 z.number = (0xC0 ||| BitVec.ofNat 8 z.number : Byte) := by
  cases z <;> rfl

/-- Byte 2 of a wall frame whose other flags and unknown bits are 0 (R95). -/
theorem wallByte2_eq (on : Bool) (hi : BitVec 2) :
    BitVec.ofBool on ++ BitVec.ofBool false ++ BitVec.ofBool false ++ BitVec.ofBool false ++ 0#2 ++ hi =
      ((if on then 0x80 else 0) ||| hi.setWidth 8 : Byte) := by
  revert hi
  cases on <;> decide

/-- The high bits of `low10`, which the frame carries in byte 2 (R95). -/
theorem low10_high (raw : Int) :
    ((BitVec.ofInt 10 raw).extractLsb' 8 2).setWidth 8 = BitVec.ofInt 8 (raw % 1024 / 256) := by
  apply BitVec.eq_of_toNat_eq
  rw [BitVec.toNat_setWidth, BitVec.extractLsb'_toNat, Nat.shiftRight_eq_div_pow, BitVec.toNat_ofInt, BitVec.toNat_ofInt]
  omega

/-- The low bits of `low10`, which are byte 3 of the frame (R95). -/
theorem low10_low (raw : Int) : (BitVec.ofInt 10 raw).extractLsb' 0 8 = BitVec.ofInt 8 raw := by
  apply BitVec.eq_of_toNat_eq
  rw [BitVec.extractLsb'_toNat, Nat.shiftRight_zero, BitVec.toNat_ofInt, BitVec.toNat_ofInt]
  omega

theorem genWall_of_pack {f : WallFields} {b : List Byte} (h : packWallBits f.zone f.toWallBits = b) :
    genWall f = b ++ [checksum b] := by
  rw [genWall, h]

/-- The bytes before the checksum of the response of a zone (R95, R115). -/
theorem packWallBits_responseFields (z : Zone) (s : State) :
    packWallBits (responseFields z s).zone (responseFields z s).toWallBits =
      [0xC0 ||| BitVec.ofNat 8 z.number,
       responseSp z s,
       (if (s.latches.mtz.get z).value.zoneOn then 0x80 else 0) |||
         BitVec.ofInt 8 (rawFromTemp (s.emu.emuTemp.get z).toInt % 1024 / 256),
       BitVec.ofInt 8 (rawFromTemp (s.emu.emuTemp.get z).toInt)] := by
  rw [← wallTag_eq, ← low10_high, ← low10_low, ← wallByte2_eq]
  rfl

theorem responseSp_latched {z : Zone} {s : State} (h : s.emu.desiredValid.get z = false) :
    (responseSp z s).toNat = (s.latches.mtz.get z).value.sp.toNat := by
  simp only [responseSp, h, Bool.false_eq_true, if_false, BitVec.toNat_setWidth]
  omega

/-- The range of a master frame has six bits, so the clamped setpoint fits its byte (R115). -/
theorem responseSp_desired {z : Zone} {s : State} (h : s.emu.desiredValid.get z = true) :
    (responseSp z s).toNat = max (s.latches.mtz.get z).value.min.toNat
      (min (s.emu.desiredSp.get z).toNat (s.latches.mtz.get z).value.max.toNat) := by
  simp only [responseSp, h, if_true, clamp, BitVec.toNat_ofInt]
  omega

/-! #### The zone that is answered -/

/-- The lowest zone that owes a response is the one the tick finds (R105, step 4). -/
theorem firstOwed_of_lowest {s : State} {z : Zone} (howed : s.respPending.get z = true)
    (hlower : ∀ z', z'.number < z.number → s.respPending.get z' = false) : firstOwed s = some z := by
  obtain ⟨before, after, hall, hbefore⟩ := Zone.all_split z
  refine List.find?_eq_some_iff_append.mpr ⟨howed, before, after, hall, fun z' hz' => ?_⟩
  rw [hlower z' (hbefore z' hz')]
  rfl

/-- A response goes out when the transmitter is idle and no frame is in progress, whatever the window (R105, step 4). -/
theorem tickSend_owed {s : State} {z : Zone} (hidle : s.tx.txBusy = false) (hempty : s.framer.len = 0)
    (howed : firstOwed s = some z) : tickSend s = sendResponse z s := by
  simp [tickSend, hidle, hempty, howed]

/-- Settles O52: the tick sends the response of the lowest zone that owes one, and its bytes are those of R95 and R115. -/
theorem responseGoesFirst : Obligations.ResponseGoesFirst := by
  rintro s z m sp b2 b3 raw frame hidle hempty howed hlower rfl rfl hlatched hdesired rfl rfl rfl
  have hsp : sp = responseSp z s := by
    apply BitVec.eq_of_toNat_eq
    cases hvalid : s.emu.desiredValid.get z with
    | false => rw [hlatched hvalid, responseSp_latched hvalid]
    | true => rw [hdesired hvalid, responseSp_desired hvalid]
  subst hsp
  rw [tickSend_owed hidle hempty (firstOwed_of_lowest howed hlower), sendResponse,
    genWall_of_pack (packWallBits_responseFields z s)]
  exact ⟨fun hwf => txBytes_txStart hwf _, rfl⟩

end Sys2Proof.Machine

/-! ### Zone frames, parsed and generated again -/

namespace Sys2Proof.Machine

theorem highNibble_eq_of_range {b : Byte} {n : BitVec 4} (hlo : 16 * n.toNat ≤ b.toNat) (hhi : b.toNat < 16 * n.toNat + 16) :
    b.extractLsb' 4 4 = n := by
  apply BitVec.eq_of_toNat_eq
  rw [highNibble_toNat]
  omega

/-- Generating from a parsed wall frame keeps bytes 0 to 3 and computes byte 4 anew (R95, R96). -/
theorem genWall_parseWall {b0 : Byte} (h : b0.extractLsb' 4 4 = 0xC#4) (b1 b2 b3 b4 : Byte) :
    genWall (parseWall [b0, b1, b2, b3, b4]) = [b0, b1, b2, b3, checksum [b0, b1, b2, b3]] :=
  genWall_of_pack (f := parseWall [b0, b1, b2, b3, b4]) (packWallBits_parse h b1 b2 b3)

/-- Generating from a parsed master frame keeps bytes 0 to 5 and computes byte 6 anew (R101, R102). -/
theorem genMtz_parseMtz {b0 : Byte} (h : b0.extractLsb' 4 4 = 0x8#4) (b1 b2 b3 b4 b5 b6 : Byte) :
    genMtz (parseMtz [b0, b1, b2, b3, b4, b5, b6]) =
      [b0, b1, b2, b3, b4, b5, checksum [b0, b1, b2, b3, b4, b5]] :=
  congrArg (fun b => b ++ [checksum b]) (packMtzBits_parse h b1 b2 b3 b4 b5)

/-- Settles O4: the bytes before the checksum hold no bit that is not a field. -/
theorem genWallOfParseWall : Obligations.GenWallOfParseWall := by
  intro b0 b1 b2 b3 b4 hlo hhi
  have htag : b0.extractLsb' 4 4 = 0xC#4 :=
    highNibble_eq_of_range (Nat.le_of_succ_le hlo) (Nat.lt_of_le_of_lt hhi (by decide))
  exact ⟨fun hsum => hsum ▸ genWall_parseWall htag b1 b2 b3 _, genWall_parseWall htag b1 b2 b3 b4⟩

/-- Settles O5, as `genWallOfParseWall` does for the wall frame. -/
theorem genMtzOfParseMtz : Obligations.GenMtzOfParseMtz := by
  rintro b0 b1 b2 b3 b4 b5 _ hlo hhi rfl
  have htag : b0.extractLsb' 4 4 = 0x8#4 :=
    highNibble_eq_of_range (Nat.le_of_succ_le hlo) (Nat.lt_of_le_of_lt hhi (by decide))
  exact genMtz_parseMtz htag b1 b2 b3 b4 b5 _

end Sys2Proof.Machine

/-! ### The views of a master frame -/

namespace Sys2Proof.Machine

/-- The number in the bits `k` to `k + n - 1` of a byte. -/
theorem extractLsb'_toNat_div (b : Byte) (k n : Nat) : (b.extractLsb' k n).toNat = b.toNat / 2 ^ k % 2 ^ n := by
  rw [BitVec.extractLsb'_toNat, Nat.shiftRight_eq_div_pow]

/-- Settles O13: 100 fits the byte, and the position is a field of three bits. -/
theorem damperPercentSaturates : Obligations.DamperPercentSaturates := by
  refine ⟨fun d => ?_, fun b1 b2 b3 b4 b5 => extractLsb'_toNat_div b2 1 3⟩
  rw [damperPct, BitVec.toNat_ofNat]
  omega

/-- Settles O14: `fanOnly` bars the first class and takes the third; without it the list of R99 is walked flag by flag. -/
theorem opClassByPriority : Obligations.OpClassByPriority := by
  intro f
  unfold opClass
  cases hfan : f.fanOnly with
  | true =>
    cases hzone : f.zoneOn <;> simp
  | false =>
    cases hcomp : f.compMode with
    | false => simp
    | true =>
      cases hzone : f.zoneOn with
      | false => simp
      | true =>
        cases hactive : f.compActive with
        | false => simp
        | true => cases hheating : f.heating <;> simp

end Sys2Proof.Machine

/-! ### Received command frames and broadcasts -/

namespace Sys2Proof.Machine

theorem decodeFrame_fanMode (rules : List BcastRule) (v : Byte) : decodeFrame rules [0x3B, v] = .fanMode v := rfl

theorem decodeFrame_operatingMode (rules : List BcastRule) (v : Byte) : decodeFrame rules [0x3C, v] = .operatingMode v := rfl

theorem decodeFrame_zoneState (rules : List BcastRule) (v : Byte) : decodeFrame rules [0x3D, v] = .zoneState v := rfl

theorem fanByteCont_iff (v : Byte) : fanByteCont v = true ↔ 128 ≤ v.toNat := by
  rw [fanByteCont, ← BitVec.msb_eq_getLsbD_last v, BitVec.msb_eq_decide, decide_eq_true_iff]

/-- The speed, the reserved bits and the continuous flag are bits 1:0, 6:2 and 7 of the fan byte (R49). -/
theorem parseCommand_fanMode (rules : List BcastRule) (v : Byte) :
    ∃ (speed : BitVec 2) (cont : Bool) (res : BitVec 5),
      parseCommand (decodeFrame rules [0x3B, v]) = some (.fanMode speed cont res) ∧
      speed.toNat = v.toNat % 4 ∧ res.toNat = v.toNat / 4 % 32 ∧ (cont = true ↔ 128 ≤ v.toNat) := by
  refine ⟨fanByteSpeed v, fanByteCont v, fanByteReserved v, ?_, ?_, extractLsb'_toNat_div v 2 5, fanByteCont_iff v⟩
  · rw [decodeFrame_fanMode, parseCommand]
  · rw [fanByteSpeed, extractLsb'_toNat_div]
    omega

/-- A command frame takes the one effect of all five (R86, R87). -/
theorem exec_command {i : Instr} {v z : Byte}
    (h : i ∈ [Instr.masterSetpoint v, .fanMode v, .operatingMode v, .zoneState v, .customZoneSetpoint z v]) (s : State) :
    exec i s = .next (acceptCommand s) := by
  simp only [List.mem_cons, List.not_mem_nil, or_false] at h
  rcases h with rfl | rfl | rfl | rfl | rfl
  · rw [exec_masterSetpoint, execMasterSetpoint, applyMasterSetpoint]
  · rw [exec_fanMode, execFanMode, applyFanMode]
  · rw [exec_operatingMode, execOperatingMode, applyOperatingMode]
  · rw [exec_zoneState, execZoneState, applyZoneState]
  · rw [exec_customZoneSetpoint, execCustomZoneSetpoint, applyCustomZoneSetpoint]

/-- Settles O19: the five commands share one effect, and their tags come before every broadcast rule. -/
theorem commandFramesAreOnlyCounted : Obligations.CommandFramesAreOnlyCounted := by
  intro rules v z s
  refine ⟨fun i hi => exec_command hi s, ?_, parseCommand_fanMode rules v, ?_, ?_, ?_⟩
  · rw [decodeFrame_masterSetpoint, parseCommand]
  · rw [decodeFrame_operatingMode, parseCommand]
  · rw [decodeFrame_zoneState, parseCommand]
  · rw [decodeFrame_customZoneSetpoint, parseCommand]

/-- `markFinal_eq` with the comparison of the statements of R86. -/
theorem markFinal_eq_beq (t : BcastType) (s : State) :
    markFinal t s = { s with timing := { s.timing with eosFlag := s.timing.eosFlag || s.params.finalType == some t } } := by
  rw [markFinal_eq, beq_eq_decide]

/-- Accepting a frame does not move the debounce times (R82, R112). -/
theorem debounceActive_accept (s : State) : debounceActive (countFrame (refreshLiveness s)) = debounceActive s := rfl

theorem latchUnlessDebounced_latch {latch : State → State} {s : State} (h : debounceActive s = false) :
    latchUnlessDebounced latch s = latch s := by
  rw [latchUnlessDebounced, h, if_neg Bool.false_ne_true]

theorem latchUnlessDebounced_suppress {latch : State → State} {s : State} (h : debounceActive s = true) :
    latchUnlessDebounced latch s = raiseEvent .debounceSuppressed s := by
  rw [latchUnlessDebounced, if_pos h]

/-- Settles O20: acceptance leaves the debounce as it was, the debounce alone decides about the latch, and the end of the sequence
is marked after it. -/
theorem stateMessagesLatchUnlessDebounced : Obligations.StateMessagesLatchUnlessDebounced := by
  rintro bytes s timing1 timing2 rfl rfl
  rw [exec_stateMessage, exec_stateMessage2, execStateMessage, execStateMessage2, applyStateMessage, applyStateMessage2,
    markFinal_eq_beq, markFinal_eq_beq]
  constructor
  · intro h
    have hoff := (debounceActive_accept s).trans h
    rw [latchUnlessDebounced_latch hoff, latchUnlessDebounced_latch hoff]
    exact ⟨rfl, rfl⟩
  · intro h
    have hon := (debounceActive_accept s).trans h
    rw [latchUnlessDebounced_suppress hon, latchUnlessDebounced_suppress hon]
    exact ⟨rfl, rfl⟩

/-- Settles O21: acceptance and the mark are all there is. -/
theorem broadcastIsOnlyCounted : Obligations.BroadcastIsOnlyCounted := by
  intro k bytes s
  rw [exec_broadcast, execBroadcast, applyBroadcast, markFinal_eq_beq]
  rfl

end Sys2Proof.Machine

/-! ### Received zone frames and dropped frames -/

namespace Sys2Proof.Machine

/-! #### The checks of a zone frame (R84, R85), one equation for each way through -/

section ZoneChecks

variable {zone : BitVec 4} {z : Zone} {s : State}

theorem checkZoneFrame_outside (h : zone.toNat < 1 ∨ 8 < zone.toNat) (ok : Bool) (effect : Zone → State → State) (s : State) :
    checkZoneFrame zone ok effect s = raiseEvent .rxZoneRange s := by
  rw [checkZoneFrame, Zone.ofNat?_eq_none.mpr h]

theorem checkZoneFrame_ok (h : zone.toNat = z.number) (effect : Zone → State → State) (s : State) :
    checkZoneFrame zone true effect s = effect z (countFrame s) := by
  rw [checkZoneFrame, Zone.ofNat?_eq_some.mpr h]
  rfl

theorem checkZoneFrame_tolerated (h : zone.toNat = z.number) (hr : csumReject s = false) (effect : Zone → State → State) :
    checkZoneFrame zone false effect s = effect z (countFrame (raiseEvent .checksumMismatch s)) := by
  rw [checkZoneFrame, Zone.ofNat?_eq_some.mpr h, hr]
  rfl

theorem checkZoneFrame_rejected (h : zone.toNat = z.number) (hr : csumReject s = true) (effect : Zone → State → State) :
    checkZoneFrame zone false effect s = raiseEvent .checksumMismatch s := by
  rw [checkZoneFrame, Zone.ofNat?_eq_some.mpr h, hr]
  rfl

end ZoneChecks

/-! #### The two zone frames -/

theorem exec_wall_of_check {zone : BitVec 4} {f : WallBits} {csum : Byte} {ok : Bool}
    (h : (csum == checksum (packWallBits zone f)) = ok) (s : State) :
    exec (.zoneWallController zone f csum) s =
      .next (checkZoneFrame zone ok (fun z => latchWall z (wallRecord zone f ok)) (refreshLiveness s)) := by
  rw [exec_zoneWallController, execZoneWallController, applyZoneWallController, h]

theorem exec_mtz_of_check {zone : BitVec 4} {f : MtzBits} {csum : Byte} {ok : Bool}
    (h : (csum == checksum (packMtzBits zone f)) = ok) (s : State) :
    exec (.zoneMasterController zone f csum) s =
      .next (checkZoneFrame zone ok (fun z => latchMtz z (mtzRecord zone f ok)) (refreshLiveness s)) := by
  rw [exec_zoneMasterController, execZoneMasterController, applyZoneMasterController, h]

/-- `latchMtz` as one write of the zone's flag: a response owed stays owed (R100). -/
theorem latchMtz_eq (z : Zone) (r : MtzFields) (s : State) :
    latchMtz z r s = { s with
      latches := { s.latches with mtz := s.latches.mtz.set z ⟨r, true⟩ }
      respPending := s.respPending.set z
        (s.respPending.get z || (s.emu.controlled.get z && s.emu.emuTempValid.get z)) } := by
  unfold latchMtz latched
  cases s.emu.controlled.get z && s.emu.emuTempValid.get z with
  | true => rw [if_pos rfl, Bool.or_true]
  | false => rw [if_neg Bool.false_ne_true, Bool.or_false, Zones.set_get]

/-- Settles O22: a zone 1..8 passes the zone check, and its frame is accepted in either case of the checksum. -/
theorem wallFrameLatches : Obligations.WallFrameLatches := by
  intro z f csum s
  refine ⟨fun hsum => ?_, fun hsum hconfig => ?_⟩
  · rw [exec_wall_of_check (beq_iff_eq.mpr hsum), checkZoneFrame_ok z.toNat_number4]
    rfl
  · have htolerant : csumReject (refreshLiveness s) = false := hconfig
    rw [exec_wall_of_check (beq_false_of_ne hsum), checkZoneFrame_tolerated z.toNat_number4 htolerant]
    rfl

/-- Settles O23, as `wallFrameLatches` does, with the response owed by `latchMtz_eq`. -/
theorem mtzFrameLatchesAndOwesResponse : Obligations.MtzFrameLatchesAndOwesResponse := by
  intro z f csum s
  refine ⟨fun hsum => ?_, fun hsum hconfig => ?_⟩
  · rw [exec_mtz_of_check (beq_iff_eq.mpr hsum), checkZoneFrame_ok z.toNat_number4, latchMtz_eq]
    rfl
  · have htolerant : csumReject (refreshLiveness s) = false := hconfig
    rw [exec_mtz_of_check (beq_false_of_ne hsum), checkZoneFrame_tolerated z.toNat_number4 htolerant, latchMtz_eq]
    rfl

/-- Settles O24: the zone check comes before the checksum check, and a check that fails raises its event on the refreshed state. -/
theorem droppedFramesOnlyRaise : Obligations.DroppedFramesOnlyRaise := by
  rintro bytes zone w m csum s _ rfl
  refine ⟨rfl, rfl, fun houtside => ⟨?_, ?_⟩, fun h1 h8 hreject hsum => ?_, fun h1 h8 hreject hsum => ?_⟩
  · rw [exec_wall_of_check rfl, checkZoneFrame_outside houtside, refreshLiveness]
  · rw [exec_mtz_of_check rfl, checkZoneFrame_outside houtside, refreshLiveness]
  · obtain ⟨z, hz⟩ := Zone.exists_of_range h1 h8
    have hstrict : csumReject (refreshLiveness s) = true := hreject
    rw [exec_wall_of_check (beq_false_of_ne hsum), checkZoneFrame_rejected hz.symm hstrict, refreshLiveness]
  · obtain ⟨z, hz⟩ := Zone.exists_of_range h1 h8
    have hstrict : csumReject (refreshLiveness s) = true := hreject
    rw [exec_mtz_of_check (beq_false_of_ne hsum), checkZoneFrame_rejected hz.symm hstrict, refreshLiveness]

end Sys2Proof.Machine

/-! ### The end of a transmission -/

namespace Sys2Proof.Machine

theorem txComplete_idle {s : State} (h : s.tx.txBusy = false) (time : Word) : txComplete time s = s := by
  rw [txComplete, h, if_neg Bool.false_ne_true]

theorem txComplete_busy {s : State} (h : s.tx.txBusy = true) (time : Word) :
    txComplete time s = { s with
      now := time
      tx := { s.tx with txBusy := false, de := false }
      timing := { s.timing with txEndSeen := true, tTxEnd := time } } := by
  rw [txComplete, if_pos h]

/-- Settles O53: the event is `txComplete` on the state that presents it, in either case of `txBusy`. -/
theorem txCompleteReleasesTheBus : Obligations.TxCompleteReleasesTheBus := by
  intro s t rest hi
  have hstep : step s = .next (txComplete t { s with inputs := rest, out := ⟨false, .none⟩ }) := step_event hi
  rw [hstep]
  refine ⟨fun hidle => ?_, fun hbusy => ?_⟩
  · rw [txComplete_idle (s := { s with inputs := rest, out := ⟨false, .none⟩ }) hidle]
  · rw [txComplete_busy (s := { s with inputs := rest, out := ⟨false, .none⟩ }) hbusy]

end Sys2Proof.Machine

/-! ### What an event does to the transmitter -/

namespace Sys2Proof.Machine

/-- What the event `e` can do to the transmitter and the strobe (R105, R116, R117, R160): leave both, start a transmission from an
idle transmitter, or release the bus, which only an end of transmission and a reset do. -/
inductive TxEffect (e : Event) (s t : State) : Prop where
  | kept (htx : t.tx = s.tx) (hstrobe : t.out.txStrobe = s.out.txStrobe)
  | started (hidle : s.tx.txBusy = false) (hbusy : t.tx.txBusy = true)
  | released (he : e = .reset ∨ ∃ time, e = .txComplete time) (hde : t.tx.de = false)
      (hstrobe : t.out.txStrobe = true → s.out.txStrobe = true)

variable {e : Event} {s t : State}

theorem storeByte_tx {b : Byte} (h : storeByte b s = .next t) : t.tx = s.tx ∧ t.out = s.out := by
  rcases storeByte_cases (storeByte_len_le h) h with ⟨-, rfl⟩ | ⟨-, rfl⟩
  · exact ⟨rfl, rfl⟩
  · exact ⟨rfl, rfl⟩

/-- A tick sends only from an idle transmitter (R105, step 2). -/
theorem TxEffect.tickSend (e : Event) (s : State) : TxEffect e s (tickSend s) := by
  rcases tickSend_cases s with he | ⟨hidle, -, z, -, he⟩ | ⟨hidle, -, -, -, k, -, he⟩ <;> rw [he]
  · exact .kept rfl rfl
  · exact .started hidle (congrArg Transmitter.txBusy (sendResponse_tx s z))
  · exact .started hidle (congrArg Transmitter.txBusy (drain_tx s k))

theorem TxEffect.txComplete (time : Word) (s : State) : TxEffect (.txComplete time) s (txComplete time s) := by
  cases hbusy : s.tx.txBusy with
  | false => rw [txComplete_idle hbusy]; exact .kept rfl rfl
  | true => rw [txComplete_busy hbusy]; exact .released (.inr ⟨time, rfl⟩) rfl id

/-- What comes before an effect and touches neither the transmitter nor the ports is no part of it. -/
theorem TxEffect.of_before {u : State} (h : TxEffect e u t) (htx : u.tx = s.tx) (hout : u.out = s.out) : TxEffect e s t := by
  cases h with
  | kept htx' hstrobe => exact .kept (htx'.trans htx) (by rw [hstrobe, hout])
  | started hidle hbusy => exact .started (by rw [← htx, hidle]) hbusy
  | released he hde hstrobe => exact .released he hde fun h => hout ▸ hstrobe h

theorem TxEffect.applyEvent (h : applyEvent e s = .next t) : TxEffect e s t := by
  cases e with
  | rxByte time b =>
    obtain ⟨mid, hm, ht⟩ := rxByte_cases h
    obtain ⟨-, -, hout, -, htx, -⟩ := closeIfSilent_keeps hm
    obtain ⟨htx', hout'⟩ := storeByte_tx ht
    exact .kept (htx'.trans htx) (congrArg Outputs.txStrobe (hout'.trans hout))
  | tick time =>
    obtain ⟨mid, hm, rfl⟩ := tick_cases h
    obtain ⟨-, -, hout, -, htx, -⟩ := closeIfSilent_keeps hm
    exact (TxEffect.tickSend _ mid).of_before htx hout
  | txComplete time => cases h; exact .txComplete time s
  | host time sel args => exact .kept (exec_keeps h).tx (exec_keeps h).strobe
  | reset => cases h; exact .released (.inl rfl) rfl nofun

/-- The write-enable drives only during a transmission, before an event and so after it (R118). -/
theorem TxEffect.de_busy (h : TxEffect e s t) (hs : s.tx.de = true → s.tx.txBusy = true) (hde : t.tx.de = true) :
    t.tx.txBusy = true := by
  cases h with
  | kept htx => rw [htx] at hde ⊢; exact hs hde
  | started _ hbusy => exact hbusy
  | released _ hrel => rw [hrel] at hde; cases hde

/-- Nothing strobes a transmission while one is in flight (R118). -/
theorem TxEffect.strobe_busy (h : TxEffect e s t) (hs : s.tx.txBusy = true) (hout : s.out.txStrobe = false) :
    t.out.txStrobe = false := by
  cases h with
  | kept _ hstrobe => rw [hstrobe, hout]
  | started hidle => rw [hs] at hidle; cases hidle
  | released _ _ hstrobe => exact Bool.eq_false_iff.mpr fun h => Bool.false_ne_true (hout.symm.trans (hstrobe h))

/-- Only the end of the transmission and a reset change a busy transmitter (R118). -/
theorem TxEffect.tx_busy (h : TxEffect e s t) (hs : s.tx.txBusy = true) (hreset : e ≠ .reset)
    (hend : ∀ time, e ≠ .txComplete time) : t.tx = s.tx := by
  cases h with
  | kept htx => exact htx
  | started hidle => rw [hs] at hidle; cases hidle
  | released he =>
    rcases he with he | ⟨time, he⟩
    · exact absurd he hreset
    · exact absurd he (hend time)

/-- Settles O54: from a busy transmitter no event starts a second transmission, and the strobe of the event before is cleared. -/
theorem halfDuplexHolds : Obligations.HalfDuplexHolds := by
  refine ⟨fun _ => nofun, fun s t h => ?_⟩
  have hecho : s.tx.txBusy = true → ∀ u : Word, isEchoByte { s with now := u } = true :=
    fun hbusy u => (isEchoByte_iff _).mpr (.inl hbusy)
  rcases step_cases h with ⟨hi, rfl⟩ | ⟨e, rest, hi, he⟩
  · exact ⟨id, fun hbusy => ⟨hecho hbusy, by simp [hi], fun _ _ => rfl⟩⟩
  · have heffect := TxEffect.applyEvent he
    refine ⟨fun hs => heffect.de_busy hs, fun hbusy => ⟨hecho hbusy, ?_, fun hend hreset => ?_⟩⟩
    · rw [heffect.strobe_busy hbusy rfl, hi]
      exact (Bool.and_false _).symm
    · exact heffect.tx_busy hbusy (fun h => hreset rest (h ▸ hi)) fun time h => hend time rest (h ▸ hi)

end Sys2Proof.Machine

/-! ### The drain of a slot -/

namespace Sys2Proof.Machine

variable {s : State} {k : SlotId}

/-- Which flags a drain leaves (R114). -/
theorem slotPending_drain (s : State) (k j : SlotId) :
    slotPending (drain k s) j = (slotPending s j && decide (j ≠ k)) :=
  slotPending_clearPending s k j

/-- A cleared slot keeps its value, and so does every other (R114). -/
theorem clearPending_values (v : Slots) (k : SlotId) :
    (clearPending v k).opMode.value = v.opMode.value ∧ (clearPending v k).zoneState.value = v.zoneState.value ∧
      (clearPending v k).fanMode.value = v.fanMode.value ∧ (clearPending v k).masterSp.value = v.masterSp.value ∧
      (clearPending v k).customSp.value = v.customSp.value ∧
      ∀ z, ((clearPending v k).mtz.get z).value = (v.mtz.get z).value := by
  cases k with
  | mtz z => exact ⟨rfl, rfl, rfl, rfl, rfl, Zones.forall_set
      (P := fun z (x : Slot MtzFields) => x.value = (v.mtz.get z).value) (fun _ => rfl) rfl⟩
  | _ => exact ⟨rfl, rfl, rfl, rfl, rfl, fun _ => rfl⟩

/-- The master overrides come after the five command slots (R113). -/
theorem slotOrder_idxOf_mtz (z : Zone) : 5 ≤ slotOrder.idxOf (.mtz z) := by cases z <;> decide

/-- A drain's times: the window and the attempt, the command time for the first five slots and the data time for the overrides
(R114). -/
theorem stampDrain_eq (k : SlotId) (now : Word) (t : Timing) :
    stampDrain k now t = { t with
      windowUsed := true, eosFlag := false, attSeen := true, tAtt := now
      cmdSeen := t.cmdSeen || slotOrder.idxOf k < 5
      tCmd := if slotOrder.idxOf k < 5 then now else t.tCmd
      dataSeen := t.dataSeen || 5 ≤ slotOrder.idxOf k
      tData := if 5 ≤ slotOrder.idxOf k then now else t.tData } := by
  cases k with
  | mtz z =>
    have hdata := slotOrder_idxOf_mtz z
    simp [stampDrain, hdata, Nat.not_lt.mpr hdata]
  | _ => simp [stampDrain, slotOrder_eq]

/-- The element that satisfies `p` and comes before all others that do is the one found. -/
theorem find?_eq_some_of_idxOf_le {α : Type} [DecidableEq α] {p : α → Bool} {l : List α} {a : α} (ha : a ∈ l)
    (hp : p a = true) (hfirst : ∀ b, p b = true → l.idxOf a ≤ l.idxOf b) : l.find? p = some a := by
  induction l with
  | nil => cases ha
  | cons x l ih =>
    by_cases hx : x = a
    · subst hx; exact List.find?_cons_of_pos hp
    · have hpos : 0 < (x :: l).idxOf a := by rw [List.idxOf_cons_ne _ hx]; exact Nat.succ_pos _
      have hpx : ¬ p x = true := fun h => by
        have := hfirst x h
        rw [List.idxOf_cons_self] at this
        omega
      rw [List.find?_cons_of_neg hpx]
      refine ih ((List.mem_cons.mp ha).resolve_left (Ne.symm hx)) fun b hb => ?_
      have hxb : x ≠ b := fun h => hpx (h ▸ hb)
      have := hfirst b hb
      rw [List.idxOf_cons_ne _ hx, List.idxOf_cons_ne _ hxb] at this
      omega

/-- The pending slot that comes first in the order is the one a tick finds (R113). -/
theorem highestPending_of_first (hk : slotPending s k = true)
    (hfirst : ∀ j, slotPending s j = true → slotOrder.idxOf k ≤ slotOrder.idxOf j) : highestPending s = some k :=
  find?_eq_some_of_idxOf_le k.mem_order hk hfirst

/-- A drain goes out when nothing of a higher step does and its conditions hold (R105, step 5). -/
theorem tickSend_drain (hidle : s.tx.txBusy = false) (hempty : s.framer.len = 0) (howed : firstOwed s = none)
    (hmay : mayDrain s = true) (hk : highestPending s = some k) : tickSend s = drain k s := by
  simp [tickSend, tickDrain, hidle, hempty, howed, hmay, hk]

/-- Settles O49: the tick drains the first pending slot, and the equations of `drain` say the rest. -/
theorem drainSendsTheHighestSlot : Obligations.DrainSendsTheHighestSlot := by
  refine ⟨fun s => ⟨rfl, rfl, rfl, rfl, rfl, fun _ => rfl⟩, ?_⟩
  intro s k order horder hopen hspace hwindow hidle hempty howed hk hfirst
  rw [← slotOrder_eq] at horder
  subst horder
  obtain ⟨hop, hzone, hfan, hmaster, hcustom, hmtz⟩ := clearPending_values s.slots k
  refine ⟨drain k s, tickSend_drain hidle hempty (firstOwed_eq_none.mpr howed)
    (mayDrain_iff.mpr ⟨hopen, hspace, hwindow⟩) (highestPending_of_first hk hfirst), rfl, rfl, rfl, rfl, rfl,
    fun hwf => txBytes_txStart (s := { s with slots := clearPending s.slots k }) hwf _,
    ?_, ?_, ?_, ?_, ?_, ?_, slotPending_drain s k, hop, hzone, hfan, hmaster, hcustom, hmtz,
    stampDrain_eq k s.now s.timing, rfl⟩
  · rintro rfl; rfl
  · rintro rfl; rfl
  · rintro rfl; rfl
  · rintro rfl; rfl
  · rintro rfl; rfl
  · rintro z rfl; rfl

/-- A frame being received bars every transmission (R105, step 3). -/
theorem tickSend_receiving (h : 0 < s.framer.len) : tickSend s = s := by rw [tickSend, if_pos h, ite_self]

/-- A tick's sending that changes the timing is a drain: a response leaves the timing alone (R105, R115). -/
theorem tickSend_timing_ne (h : (tickSend s).timing ≠ s.timing) :
    s.tx.txBusy = false ∧ s.framer.len = 0 ∧ firstOwed s = none ∧ mayDrain s = true ∧
      ∃ k, highestPending s = some k ∧ tickSend s = drain k s := by
  rcases tickSend_cases s with he | ⟨-, -, z, -, he⟩ | hdrain
  · exact absurd (congrArg State.timing he) h
  · exact absurd ((congrArg State.timing he).trans (sendResponse_timing s z)) h
  · exact hdrain

/-- With no response owed, a tick that may not drain, or has nothing to drain, sends nothing (R105, step 5). -/
theorem tickSend_nothing (howed : firstOwed s = none) (h : mayDrain s = false ∨ highestPending s = none) :
    tickSend s = s := by
  rcases tickSend_cases s with he | ⟨-, -, z, hz, -⟩ | ⟨-, -, -, hmay, k, hk, -⟩
  · exact he
  · cases howed.symm.trans hz
  · rcases h with h | h
    · cases h.symm.trans hmay
    · cases h.symm.trans hk

/-- When a drain is not allowed: the bus neither quiet nor at the end of a sequence, too soon, or the window used (R105, step 5). -/
theorem mayDrain_eq_false : mayDrain s = false ↔
    quiet s = false ∧ s.timing.eosFlag = false ∨ spacingOk s = false ∨ s.timing.windowUsed = true := by
  simp only [mayDrain, Bool.and_eq_false_iff, Bool.or_eq_false_iff, Bool.not_eq_false', or_assoc]

/-- Settles O50: only a drain touches the timing, and a drain has its conditions; where they fail nothing is sent. -/
theorem drainNeedsItsConditions : Obligations.DrainNeedsItsConditions := by
  constructor
  · intro s t mid time hmid ht hne
    obtain ⟨-, -, -, hnow, -⟩ := closeIfSilent_keeps hmid
    obtain ⟨mid', hmid', rfl⟩ := tick_cases ht
    cases hmid.symm.trans hmid'
    subst hnow
    obtain ⟨hidle, hempty, howed, hmay, k, hk, he⟩ := tickSend_timing_ne hne
    obtain ⟨hopen, hspace, hwindow⟩ := mayDrain_iff.mp hmay
    have hwait : mid.timing.attSeen = true → 900 ≤ (mid.now - mid.timing.tAtt).toNat := fun hatt =>
      ((spacingOk_iff mid).mp hspace).resolve_left fun hnone => Bool.false_ne_true (hnone.symm.trans hatt)
    have hcleared : slotPending (drain k mid) k = false := by simp [slotPending_drain]
    rw [he, drain_timing, stampDrain_eq]
    exact ⟨hidle, hempty, firstOwed_eq_none.mp howed, hopen.symm.imp_right (quiet_iff mid).mp, hwait, hwindow, rfl, rfl, k,
      highestPending_pending hk, hcleared⟩
  · intro mid
    refine ⟨tickSend_busy, tickSend_receiving, fun howed hfails => tickSend_nothing (firstOwed_eq_none.mpr howed) ?_⟩
    rwa [mayDrain_eq_false, highestPending_eq_none, or_assoc, or_assoc]

end Sys2Proof.Machine

/-! ### A window that is used -/

namespace Sys2Proof.Machine

/-- No slot pending at `s` has lost its flag at `t`. -/
def PendingKept (s t : State) : Prop := ∀ j, slotPending s j = true → slotPending t j = true

/-- What stands from `s` to `t` while no slot is drained and no window opened: the window's mark, the times of the arbiter, and the
pending slots (R109, R110). -/
structure WindowKept (s t : State) : Prop where
  windowUsed : t.timing.windowUsed = s.timing.windowUsed
  attSeen : t.timing.attSeen = s.timing.attSeen
  tAtt : t.timing.tAtt = s.timing.tAtt
  tCmd : t.timing.tCmd = s.timing.tCmd
  tData : t.timing.tData = s.timing.tData
  pending : PendingKept s t

variable {s t u : State}

theorem PendingKept.of_slots (h : t.slots = s.slots) : PendingKept s t := by
  unfold PendingKept slotPending
  rw [h]
  exact fun _ => id

theorem PendingKept.trans (h : PendingKept s t) (k : PendingKept t u) : PendingKept s u := fun j hj => k j (h j hj)

/-- SET_ZONE_SETPOINT_TEMPERATURE fills a slot or leaves it (R130). -/
theorem PendingKept.storeDesired (z : Zone) (tgt : Int) (s : State) : PendingKept s (storeDesired z tgt s) := by
  intro j hj
  cases j with
  | customSp =>
    simp only [slotPending, Machine.storeDesired] at hj ⊢
    split
    · exact hj
    · rfl
  | _ => exact hj

theorem PendingKept.masterSp (v : Byte) (s : State) :
    PendingKept s { s with slots := { s.slots with masterSp := enqueue v } } := by
  intro j hj
  cases j with
  | masterSp => rfl
  | _ => exact hj

/-- A host operation fills slots and empties none (R120). -/
theorem PendingKept.hostEffect {i : Instr} (h : HostEffect i s t) : PendingKept s t := by
  cases h with
  | opMode hm =>
    intro j hj
    cases j with
    | opMode => rfl
    | _ => exact hj
  | zoneState m =>
    intro j hj
    cases j with
    | zoneState => rfl
    | _ => exact hj
  | fanMode c speed =>
    intro j hj
    cases j with
    | fanMode => rfl
    | _ => exact hj
  | masterSp x => exact .masterSp _ s
  | desired z x => exact .storeDesired z _ s
  | shifted z x y => exact (PendingKept.masterSp _ s).trans (.storeDesired z _ _)
  | override z f =>
    intro j hj
    cases j with
    | mtz z' =>
      exact Zones.forall_set (P := fun z (x : Slot MtzFields) => slotPending s (.mtz z) = true → x.pending = true)
        (v := s.slots.mtz) (fun _ => id) (fun _ => rfl) z' hj
    | _ => exact hj
  | processed bytes =>
    obtain ⟨-, -, -, -, -, -, hslots, -⟩ := processFrame_keeps bytes false s
    exact .of_slots hslots
  | _ => exact .of_slots rfl

namespace WindowKept

theorem refl (s : State) : WindowKept s s := ⟨rfl, rfl, rfl, rfl, rfl, fun _ => id⟩

theorem trans (h : WindowKept s t) (k : WindowKept t u) : WindowKept s u where
  windowUsed := k.windowUsed.trans h.windowUsed
  attSeen := k.attSeen.trans h.attSeen
  tAtt := k.tAtt.trans h.tAtt
  tCmd := k.tCmd.trans h.tCmd
  tData := k.tData.trans h.tData
  pending := h.pending.trans k.pending

/-- Frames and host operations touch no timing but liveness and the end-of-sequence flag. -/
theorem of_timing (ht : t.timing =
      { s.timing with frameSeen := t.timing.frameSeen, tFrame := t.timing.tFrame, eosFlag := t.timing.eosFlag })
    (hp : PendingKept s t) : WindowKept s t where
  windowUsed := by rw [ht]
  attSeen := by rw [ht]
  tAtt := by rw [ht]
  tCmd := by rw [ht]
  tData := by rw [ht]
  pending := hp

theorem closeIfSilent (h : closeIfSilent s = .next t) : WindowKept s t := by
  obtain ⟨-, -, -, -, -, hslots, -, htiming⟩ := closeIfSilent_keeps h
  exact .of_timing htiming (.of_slots hslots)

/-- An echo byte opens no window (R63, R109). -/
theorem noteByte (h : isEchoByte s = true) : WindowKept s (noteByte s) where
  windowUsed := by rw [noteByte_windowUsed, if_pos h]
  attSeen := rfl
  tAtt := rfl
  tCmd := rfl
  tData := rfl
  pending := .of_slots (noteByte_slots s)

theorem storeByte {b : Byte} (h : storeByte b s = .next t) : WindowKept s t := by
  rcases storeByte_cases (storeByte_len_le h) h with ⟨-, rfl⟩ | ⟨-, rfl⟩
  · exact ⟨rfl, rfl, rfl, rfl, rfl, .of_slots rfl⟩
  · exact ⟨rfl, rfl, rfl, rfl, rfl, .of_slots rfl⟩

/-- In a used window a tick sends a response at most, which is no drain (R105, R115). -/
theorem tickSend (h : s.timing.windowUsed = true) : WindowKept s (tickSend s) := by
  rcases tickSend_cases s with he | ⟨-, -, z, -, he⟩ | ⟨-, -, -, hmay, -⟩
  · rw [he]
    exact .refl s
  · rw [he]
    exact ⟨rfl, rfl, rfl, rfl, rfl, .of_slots (sendResponse_slots s z)⟩
  · obtain ⟨-, -, hunused⟩ := mayDrain_iff.mp hmay
    cases hunused.symm.trans h

theorem txComplete (time : Word) (s : State) : WindowKept s (txComplete time s) := by
  cases hbusy : s.tx.txBusy with
  | false => rw [txComplete_idle hbusy]; exact .refl s
  | true => rw [txComplete_busy hbusy]; exact ⟨rfl, rfl, rfl, rfl, rfl, .of_slots rfl⟩

end WindowKept

/-- The framer's part leaves what decides the mark of a byte (R67). -/
theorem isEchoByte_closeIfSilent (h : closeIfSilent s = .next t) : isEchoByte t = isEchoByte s := by
  obtain ⟨hparams, -, -, hnow, htx, -, -, htiming⟩ := closeIfSilent_keeps h
  unfold isEchoByte elapsed
  rw [hparams, hnow, htx, htiming]

/-- No event but one that opens a window undoes a used one (R109, R110). -/
theorem WindowKept.applyEvent {e : Event} (hs : s.timing.windowUsed = true) (he : ¬ OpensWindow s e)
    (h : applyEvent e s = .next t) : WindowKept s t := by
  have hnow : ∀ time, WindowKept s { s with now := time } := fun _ => ⟨rfl, rfl, rfl, rfl, rfl, .of_slots rfl⟩
  cases e with
  | rxByte time b =>
    obtain ⟨mid, hm, ht⟩ := rxByte_cases h
    have hecho : isEchoByte mid = true := (isEchoByte_closeIfSilent hm).trans (Bool.eq_true_of_not_eq_false he)
    exact (((hnow time).trans (.closeIfSilent hm)).trans (.noteByte hecho)).trans (.storeByte ht)
  | tick time =>
    obtain ⟨mid, hm, rfl⟩ := tick_cases h
    have hmid : WindowKept s mid := (hnow time).trans (.closeIfSilent hm)
    exact hmid.trans (.tickSend (hmid.windowUsed.trans hs))
  | txComplete time => cases h; exact .txComplete time s
  | host time sel args =>
    exact (hnow time).trans (.of_timing (exec_keeps h).timing (.hostEffect (exec_host_effect (decodeHost_port sel args) h)))
  | reset => exact absurd trivial he

/-- One step of a run that opens no window (R110). -/
theorem WindowKept.step (hs : s.timing.windowUsed = true)
    (hopens : ∀ e rest, s.inputs = e :: rest → ¬ OpensWindow s e) (h : step s = .next t) : WindowKept s t := by
  rcases step_cases h with ⟨-, rfl⟩ | ⟨e, rest, hi, he⟩
  · exact .refl _
  · have hpresent : WindowKept s { s with inputs := rest, out := ⟨false, .none⟩ } := ⟨rfl, rfl, rfl, rfl, rfl, .of_slots rfl⟩
    exact hpresent.trans (.applyEvent hs (hopens e rest hi) he)

/-- A run of at least one step that goes on begins with a step that goes on. -/
theorem run_succ_cases {n : Nat} (h : core.run (n + 1) s = .next t) : ∃ u, step s = .next u ∧ core.run n u = .next t := by
  cases hstep : step s with
  | next u => exact ⟨u, rfl, (run_succ (M := core) n hstep).symm.trans h⟩
  | fault r => simp [Host.Core.run, core, hstep] at h
  | refused r => simp [Host.Core.run, core, hstep] at h

/-- A run of any length that opens no window (R110). -/
theorem WindowKept.run {n : Nat} (hs : s.timing.windowUsed = true) (h : core.run n s = .next t)
    (hopens : ∀ (k : Nat) (mid : State) (e : Event) (rest : List Event), k < n → core.run k s = .next mid →
      mid.inputs = e :: rest → ¬ OpensWindow mid e) : WindowKept s t := by
  induction n generalizing s with
  | zero => cases h; exact .refl _
  | succ n ih =>
    obtain ⟨u, hstep, hrun⟩ := run_succ_cases h
    have hu : WindowKept s u := .step hs (fun e rest hi => hopens 0 s e rest n.succ_pos rfl hi) hstep
    exact hu.trans <| ih (hu.windowUsed.trans hs) hrun fun k mid e rest hk hmid =>
      hopens (k + 1) mid e rest (Nat.succ_lt_succ hk) ((run_succ (M := core) k hstep).trans hmid)

/-- Settles O51, by induction on the number of steps, each of which keeps the window, the times and the pending slots. -/
theorem oneDrainPerWindow : Obligations.OneDrainPerWindow := by
  intro n s t hs h hopens
  have hkept := WindowKept.run hs h hopens
  exact ⟨hkept.windowUsed.trans hs, hkept.attSeen, hkept.tAtt, hkept.tCmd, hkept.tData, hkept.pending⟩

end Sys2Proof.Machine

/-! ### The checks of the host operations, passed and failed -/

namespace Sys2Proof.Machine

variable {s : State}

theorem withDomain_pass {ok : Bool} (h : ok = true) (k : State → Result) : withDomain ok s k = k s := if_pos h

theorem withDomain_fail {ok : Bool} (h : ok = false) (k : State → Result) :
    withDomain ok s k = .next (raiseEvent .badArgument s) := by
  rw [h]
  rfl

theorem withContext_known {α : Type} {v : Option α} {x : α} (h : v = some x) (k : α → State → Result) :
    withContext v s k = k x s := by rw [h, withContext]

theorem withContext_unknown {α : Type} {v : Option α} (h : v = none) (k : α → State → Result) :
    withContext v s k = .next (raiseEvent .intentNoContext s) := by rw [h, withContext]

/-- A choice by a flag that is not set. -/
theorem ite_eq_of_eq_false {α : Type} {b : Bool} {x y z : α} (hb : b = false) (hy : y = z) : (if b then x else y) = z :=
  (if_neg (ne_true_of_eq_false hb)).trans hy

/-- A zone argument in its domain is the number of a zone (R119, check 2). -/
theorem exists_zone_of_byte {zone : Byte} (h1 : 1 ≤ zone.toNat) (h8 : zone.toNat ≤ 8) :
    ∃ z : Zone, zone = BitVec.ofNat 8 z.number := by
  obtain ⟨z, hz⟩ := Zone.exists_of_range h1 h8
  exact ⟨z, by rw [hz, BitVec.ofNat_toNat, BitVec.setWidth_eq]⟩

end Sys2Proof.Machine

/-! ### The gate of the intents -/

namespace Sys2Proof.Machine

/-- Liveness is the first thing the operation checks (R119, check 1). -/
def Gated (i : Instr) : Prop := ∃ k : State → Result, ∀ s, exec i s = gated s k

namespace Gated

theorem setSystemOn (on : Bool) : Gated (.setSystemOn on) := ⟨_, fun _ => rfl⟩

theorem setOperatingMode (mode : Byte) : Gated (.setOperatingMode mode) := ⟨_, fun _ => rfl⟩

theorem setFanSpeed (speed : Byte) : Gated (.setFanSpeed speed) := ⟨_, fun _ => rfl⟩

theorem setFanSpeedAbsolute (speed cont : Byte) : Gated (.setFanSpeedAbsolute speed cont) := ⟨_, fun _ => rfl⟩

theorem setContinuousFanMode (cont : Byte) : Gated (.setContinuousFanMode cont) := ⟨_, fun _ => rfl⟩

theorem setMasterSetpoint (d : Half) : Gated (.setMasterSetpoint d) := ⟨_, fun _ => rfl⟩

theorem setZoneOn (zone : Byte) (on : Bool) : Gated (.setZoneOn zone on) := ⟨_, fun _ => rfl⟩

theorem setZoneSetpointTemperature (zone : Byte) (d : Half) (adjustMaster : Bool) :
    Gated (.setZoneSetpointTemperature zone d adjustMaster) := ⟨_, fun _ => rfl⟩

/-- A gated operation is dropped with its event while nothing is received (R119). -/
theorem stale {i : Instr} {s : State} (hi : Gated i) (h : receivingData s = false) :
    exec i s = .next (raiseEvent .intentStale s) := by
  obtain ⟨k, hk⟩ := hi
  rw [hk, gated_stale h]

end Gated

/-- Settles O27: each of the eight begins with the gate. -/
theorem staleIntentsAreDropped : Obligations.StaleIntentsAreDropped := by
  intro on adj a b d s hstale i hi
  have hgated : Gated i := by
    simp only [List.mem_cons, List.not_mem_nil, or_false] at hi
    rcases hi with rfl | rfl | rfl | rfl | rfl | rfl | rfl | rfl
    · exact .setSystemOn on
    · exact .setOperatingMode a
    · exact .setFanSpeed a
    · exact .setFanSpeedAbsolute a b
    · exact .setContinuousFanMode a
    · exact .setMasterSetpoint d
    · exact .setZoneOn a on
    · exact .setZoneSetpointTemperature a d adj
  exact hgated.stale hstale

end Sys2Proof.Machine

/-! ### The modes -/

namespace Sys2Proof.Machine

variable {s : State}

theorem opModeOfCode_opModeCode (m : OpMode) : opModeOfCode (opModeCode m) = some m := by cases m <;> rfl

/-- The codes above 7 are reserved (R48). -/
theorem opModeOfCode_reserved {c : Byte} (h : 7 < c.toNat) : opModeOfCode c = none := by
  unfold opModeOfCode
  split
  case h_9 => rfl
  all_goals omega

/-- The codes 0 to 7 are those of the modes (R48). -/
theorem exists_opModeCode {c : Byte} (h : c.toNat ≤ 7) : ∃ m, opModeCode m = c := by
  have hcodes : ∀ n ≤ 7, ∃ m, (opModeCode m).toNat = n := by
    intro n hn
    interval_cases n
    exacts [⟨.off, rfl⟩, ⟨.offAuto, rfl⟩, ⟨.offCool, rfl⟩, ⟨.offHeat, rfl⟩, ⟨.fanOnly, rfl⟩, ⟨.auto, rfl⟩, ⟨.cool, rfl⟩,
      ⟨.heat, rfl⟩]
  obtain ⟨m, hm⟩ := hcodes _ h
  exact ⟨m, BitVec.eq_of_toNat_eq hm⟩

/-- `ON_TABLE` sets bit 2 of a mode's code, `OFF_TABLE` clears it (R123). -/
theorem opModeCode_table (on : Bool) (m : OpMode) :
    opModeCode (if on then onTable m else offTable m) = if on then opModeCode m ||| 4 else opModeCode m &&& 3 := by
  cases on <;> cases m <;> rfl

theorem exec_setSystemOn_live (hlive : receivingData s = true) (on : Bool) :
    exec (.setSystemOn on) s =
      withContext ((base s.slots.opMode (srcFields s).operatingMode).bind opModeOfCode) s fun m s =>
        .next { s with slots := { s.slots with opMode := enqueue (opModeCode (if on then onTable m else offTable m)) } } := by
  rw [exec_setSystemOn, execSetSystemOn, gated_live hlive]

/-- Settles O28: the known code is that of a mode, whose entry in the tables is its code with bit 2 set or cleared. -/
theorem systemOnMapsTheMode : Obligations.SystemOnMapsTheMode := by
  intro on s hlive
  rw [exec_setSystemOn_live hlive]
  refine ⟨fun c hc hle => ?_, fun hpending hfield => ?_, fun c hc hgt => ?_⟩
  · obtain ⟨m, rfl⟩ := exists_opModeCode hle
    rw [base_eq_some.mpr hc, Option.bind_some, withContext_known (opModeOfCode_opModeCode m), opModeCode_table]
    rfl
  · rw [base_eq_none.mpr ⟨hpending, hfield⟩, Option.bind_none, withContext_unknown rfl]
  · rw [base_eq_some.mpr hc, Option.bind_some, withContext_unknown (opModeOfCode_reserved hgt)]

/-- Settles O29: past the gate, the domain check decides. -/
theorem operatingModeIsQueued : Obligations.OperatingModeIsQueued := by
  intro mode s
  refine ⟨(Gated.setOperatingMode mode).stale, fun hlive hgt => ?_, fun hlive hle => ?_⟩ <;>
    rw [exec_setOperatingMode, execSetOperatingMode, gated_live hlive]
  · rw [withDomain_fail (decide_eq_false hgt.not_ge)]
  · rw [withDomain_pass (decide_eq_true hle)]
    rfl

end Sys2Proof.Machine

/-! ### The fan mode -/

namespace Sys2Proof.Machine

variable {s : State} {speed cont : Byte}

theorem fanByte_toNat (c : Bool) (v : BitVec 2) : (fanByte c v).toNat = 128 * c.toNat + v.toNat := by
  revert v
  cases c <;> decide

theorem fanByteSpeed_toNat (v : Byte) : (fanByteSpeed v).toNat = v.toNat % 4 := by
  rw [fanByteSpeed, extractLsb'_toNat_div, pow_zero, Nat.div_one]
  rfl

/-- A speed argument in its domain is its low two bits (R125). -/
theorem speed_toNat (h : speed.toNat ≤ 3) : (speed.extractLsb' 0 2).toNat = speed.toNat := by
  rw [extractLsb'_toNat_div]
  omega

/-- A continuous-fan argument in its domain is its low bit (R127). -/
theorem cont_toNat (h : cont.toNat ≤ 1) : (cont.getLsbD 0).toNat = cont.toNat := by
  rw [BitVec.getLsbD, Nat.testBit_zero]
  obtain h | h : cont.toNat = 0 ∨ cont.toNat = 1 := by omega
  all_goals rw [h]; rfl

/-- The byte of an explicit flag and a speed (R126, R127). -/
theorem fanByte_cont (h : cont.toNat ≤ 1) (v : BitVec 2) :
    fanByte (cont.getLsbD 0) v = BitVec.ofNat 8 (128 * cont.toNat + v.toNat) := by
  rw [← cont_toNat h, ← fanByte_toNat, BitVec.ofNat_toNat, BitVec.setWidth_eq]

/-- The byte of a kept flag and a speed argument (R125). -/
theorem fanByte_speed (h : speed.toNat ≤ 3) (c : Bool) :
    fanByte c (speed.extractLsb' 0 2) = (if c then 0x80#8 else 0) ||| speed := by
  have hspeed : speed = (speed.extractLsb' 0 2).setWidth 8 := by
    apply BitVec.eq_of_toNat_eq
    rw [BitVec.toNat_setWidth, speed_toNat h]
    omega
  conv_rhs => rw [hspeed]
  generalize speed.extractLsb' 0 2 = v
  revert v
  cases c <;> decide

/-- The flag of a fan byte, in its place (R49). -/
theorem fanByteCont_mask (v : Byte) : (if fanByteCont v then 0x80#8 else 0) = v &&& 0x80#8 :=
  (BitVec.and_twoPow v 7).symm

theorem exec_setFanSpeed_live (hlive : receivingData s = true) (h : speed.toNat ≤ 3) :
    exec (.setFanSpeed speed) s =
      withContext (if s.slots.fanMode.pending then some (fanByteCont s.slots.fanMode.value)
          else (srcFields s).continuousFan) s fun c s =>
        .next { s with slots := { s.slots with fanMode := ⟨(if c then 0x80#8 else 0) ||| speed, true⟩ } } := by
  rw [exec_setFanSpeed, execSetFanSpeed, gated_live hlive, withDomain_pass (decide_eq_true h)]
  simp only [fanByte_speed h, enqueue]

theorem exec_setContinuousFanMode_live (hlive : receivingData s = true) (h : cont.toNat ≤ 1) :
    exec (.setContinuousFanMode cont) s =
      withContext (if s.slots.fanMode.pending then some (fanByteSpeed s.slots.fanMode.value)
          else (srcFields s).fanSpeed) s fun v s =>
        .next { s with slots := { s.slots with
          fanMode := ⟨BitVec.ofNat 8 (128 * cont.toNat + v.toNat), true⟩ } } := by
  rw [exec_setContinuousFanMode, execSetContinuousFanMode, gated_live hlive, withDomain_pass (decide_eq_true h)]
  simp only [fanByte_cont h, enqueue]

/-- Settles O30: the other part is that of the pending byte, or else the decoded field. -/
theorem fanIntentsKeepTheOtherPart : Obligations.FanIntentsKeepTheOtherPart := by
  intro speed cont s hlive
  refine ⟨fun hgt => ?_, fun hle hpending => ?_, fun c hle hpending hfield => ?_, fun hle hpending hfield => ?_,
    fun hgt => ?_, fun hle hpending => ?_, fun v hle hpending hfield => ?_, fun hle hpending hfield => ?_⟩
  · rw [exec_setFanSpeed, execSetFanSpeed, gated_live hlive, withDomain_fail (decide_eq_false hgt.not_ge)]
  · rw [exec_setFanSpeed_live hlive hle, withContext_known (if_pos hpending), fanByteCont_mask]
  · rw [exec_setFanSpeed_live hlive hle, withContext_known (ite_eq_of_eq_false hpending hfield)]
  · rw [exec_setFanSpeed_live hlive hle, withContext_unknown (ite_eq_of_eq_false hpending hfield)]
  · rw [exec_setContinuousFanMode, execSetContinuousFanMode, gated_live hlive,
      withDomain_fail (decide_eq_false hgt.not_ge)]
  · rw [exec_setContinuousFanMode_live hlive hle, withContext_known (if_pos hpending), fanByteSpeed_toNat]
  · rw [exec_setContinuousFanMode_live hlive hle, withContext_known (ite_eq_of_eq_false hpending hfield)]
  · rw [exec_setContinuousFanMode_live hlive hle, withContext_unknown (ite_eq_of_eq_false hpending hfield)]

/-- Settles O31: both parts come from the arguments. -/
theorem fanSpeedAbsoluteSetsBoth : Obligations.FanSpeedAbsoluteSetsBoth := by
  intro speed cont s
  refine ⟨(Gated.setFanSpeedAbsolute speed cont).stale, fun hlive hout => ?_, fun hlive hspeed hcont => ?_⟩ <;>
    rw [exec_setFanSpeedAbsolute, execSetFanSpeedAbsolute, gated_live hlive]
  · rw [← Bool.decide_and, withDomain_fail (decide_eq_false (by omega))]
  · rw [← Bool.decide_and, withDomain_pass (decide_eq_true ⟨hspeed, hcont⟩), fanByte_cont hcont, speed_toNat hspeed]
    rfl

end Sys2Proof.Machine

/-! ### The master setpoint and the zones that are on -/

namespace Sys2Proof.Machine

theorem clampSp_eq (x : Int) : clampSp x = max 32 (min x 60) := rfl

/-- A clamped setpoint fits its byte. -/
theorem clampSp_toNat (x : Int) : ((BitVec.ofInt 8 (clampSp x)).toNat : Int) = clampSp x := by
  rw [BitVec.toNat_ofInt, clampSp_eq]
  omega

/-- Settles O32: the target errs by at most 2 tenths of a degree before it is clamped. -/
theorem masterSetpointIsClamped : Obligations.MasterSetpointIsClamped := by
  intro d s
  refine ⟨(Gated.setMasterSetpoint d).stale, fun hlive => ⟨BitVec.ofInt 8 (clampSp (spFromTemp d.toInt)), ?_,
    clampSp_inRange _, fun hlow => ?_, fun hhigh => ?_, fun hlow hhigh => ?_⟩⟩
  · rw [exec_setMasterSetpoint, execSetMasterSetpoint, gated_live hlive]
    rfl
  all_goals
    obtain ⟨hbelow, habove⟩ := spFromTemp_bounds d.toInt
    have hclamp := clampSp_eq (spFromTemp d.toInt)
  · rw [show clampSp (spFromTemp d.toInt) = 32 by omega]
    rfl
  · rw [show clampSp (spFromTemp d.toInt) = 60 by omega]
    rfl
  · rw [clampSp_toNat]
    omega

/-- The bitmap with one zone switched, bit by bit (R129). -/
theorem bitmapSet_getLsbD (m : Byte) (z : Zone) (on : Bool) (n : Nat) :
    (bitmapSet m z on).getLsbD n = if n = z.number - 1 then on else m.getLsbD n := by
  have hz : z.number - 1 < 8 := by have := z.number_le; omega
  have hbit : (1#8 <<< (z.number - 1)).getLsbD n = decide (n = z.number - 1) := by
    rw [← BitVec.twoPow_eq, BitVec.getLsbD_twoPow]
    simp [hz, eq_comm]
  have hbyte : m.getLsbD n = true → n < 8 := BitVec.lt_of_getLsbD
  by_cases hn : n = z.number - 1
  · cases on <;> simp [bitmapSet, hn, hz]
  · cases on with
    | true => simp [bitmapSet, hbit, hn]
    | false => simpa [bitmapSet, hbit, hn] using hbyte

/-- Settles O33: the bitmap is the known one with the zone's bit switched. -/
theorem zoneOnSwitchesOneBit : Obligations.ZoneOnSwitchesOneBit := by
  intro zone on s hlive
  rw [exec_setZoneOn, execSetZoneOn, gated_live hlive]
  refine ⟨fun hout => withZone_outside hout _ _, fun h1 h8 hpending hfield => ?_, fun m h1 h8 hm => ?_⟩ <;>
    obtain ⟨z, rfl⟩ := exists_zone_of_byte h1 h8 <;>
    rw [withZone_number]
  · rw [withContext_unknown (base_eq_none.mpr ⟨hpending, hfield⟩)]
  · refine ⟨bitmapSet m z on, withContext_known (base_eq_some.mpr hm) _, ?_, fun n hn => ?_⟩
    · rw [bitmapSet_getLsbD, Zone.toNat_number8, if_pos rfl]
    · rw [Zone.toNat_number8] at hn
      rw [bitmapSet_getLsbD, if_neg hn]

end Sys2Proof.Machine

/-! ### The zone setpoint -/

namespace Sys2Proof.Machine

variable {s : State} {z : Zone} {d : Half} {adj : Bool} {tgt lo hi delta : Int}

theorem rangeExcess_eq_none : rangeExcess tgt lo hi = none ↔ lo ≤ tgt ∧ tgt ≤ hi := by
  unfold rangeExcess
  split_ifs <;> simp <;> omega

theorem rangeExcess_eq_some : rangeExcess tgt lo hi = some delta ↔
    delta = tgt - hi ∧ 0 < delta ∨ delta = tgt - lo ∧ delta < 0 ∧ tgt ≤ hi := by
  unfold rangeExcess
  split_ifs <;> simp <;> omega

/-- When the master setpoint stays (R130). -/
theorem masterShift_eq_none : masterShift z tgt adj s = none ↔
    adj = false ∨ (s.latches.mtz.get z).valid = false ∨
      (s.latches.mtz.get z).value.min.toNat ≤ tgt ∧ tgt ≤ (s.latches.mtz.get z).value.max.toNat := by
  unfold masterShift
  cases adj <;> cases hvalid : (s.latches.mtz.get z).valid <;> simp [hvalid, rangeExcess_eq_none]

/-- How far it is shifted: by the distance of the target from the zone's range (R130). -/
theorem masterShift_eq_some (hadj : adj = true) (hvalid : (s.latches.mtz.get z).valid = true) :
    masterShift z tgt adj s = some delta ↔
      delta = tgt - (s.latches.mtz.get z).value.max.toNat ∧ 0 < delta ∨
        delta = tgt - (s.latches.mtz.get z).value.min.toNat ∧ delta < 0 ∧
          tgt ≤ (s.latches.mtz.get z).value.max.toNat := by
  simp [masterShift, hadj, hvalid, rangeExcess_eq_some]

/-- No shift is needed: the target is stored (R130). -/
theorem exec_setZoneSetpointTemperature_unshifted (hlive : receivingData s = true)
    (h : masterShift z (clampSp (spFromTemp d.toInt)) adj s = none) :
    exec (.setZoneSetpointTemperature (BitVec.ofNat 8 z.number) d adj) s =
      .next (storeDesired z (clampSp (spFromTemp d.toInt)) s) := by
  rw [exec_setZoneSetpointTemperature, execSetZoneSetpointTemperature, gated_live hlive, withZone_number]
  simp only [h]

/-- A shift is needed: the known master setpoint is shifted, and the target stored (R130). -/
theorem exec_setZoneSetpointTemperature_shifted (hlive : receivingData s = true)
    (h : masterShift z (clampSp (spFromTemp d.toInt)) adj s = some delta) :
    exec (.setZoneSetpointTemperature (BitVec.ofNat 8 z.number) d adj) s =
      withContext (base s.slots.masterSp (srcFields s).masterSetpoint) s fun b s =>
        .next (storeDesired z (clampSp (spFromTemp d.toInt)) { s with slots := { s.slots with
          masterSp := enqueue (BitVec.ofInt 8 (clampSp (b.toNat + delta))) } }) := by
  rw [exec_setZoneSetpointTemperature, execSetZoneSetpointTemperature, gated_live hlive, withZone_number]
  simp only [h]

/-- Settles O34: the distance out of the range decides whether the master setpoint is shifted. -/
theorem zoneSetpointIsStoredAndShiftsMaster : Obligations.ZoneSetpointIsStoredAndShiftsMaster := by
  refine ⟨fun zone d adj s => ⟨(Gated.setZoneSetpointTemperature zone d adj).stale, fun hlive hzone => ?_⟩, ?_⟩
  · rw [exec_setZoneSetpointTemperature, execSetZoneSetpointTemperature, gated_live hlive, withZone_outside hzone]
  rintro z d adj s stored v hlive hv rfl
  rw [← clampSp_eq] at hv
  have htgt : (v.toNat : Int) = clampSp (spFromTemp d.toInt) := by rw [hv, clampSp_toNat]
  subst hv
  refine ⟨fun hnone => exec_setZoneSetpointTemperature_unshifted hlive (masterShift_eq_none.mpr ?_),
    fun delta hadj hvalid hdelta => ?_⟩
  · rwa [← htgt, Nat.cast_le, Nat.cast_le]
  have hshift : masterShift z (clampSp (spFromTemp d.toInt)) adj s = some delta :=
    (masterShift_eq_some hadj hvalid).mpr (by rwa [← htgt, Nat.cast_le])
  rw [exec_setZoneSetpointTemperature_shifted hlive hshift]
  exact ⟨fun b hb => withContext_known (base_eq_some.mpr hb) _,
    fun hpending hfield => withContext_unknown (base_eq_none.mpr ⟨hpending, hfield⟩) _⟩

end Sys2Proof.Machine

/-! ### What an intent leaves unchanged -/

namespace Sys2Proof.Machine

/-- `t` differs from `s` at most in the command slots, the desired setpoints, STATUS and the event counters (R120). -/
def FillsSlots (s t : State) : Prop :=
  t = { s with
    slots := { t.slots with mtz := s.slots.mtz }
    emu := { s.emu with desiredSp := t.emu.desiredSp, desiredValid := t.emu.desiredValid }
    regs := { s.regs with status := t.regs.status, cnt := t.regs.cnt } }

namespace FillsSlots

variable {s t : State}

theorem raise (k : EventCode) (s : State) : FillsSlots s (raiseEvent k s) := rfl

theorem of_next {u : State} (h : (.next u : Result) = .next t) (hu : FillsSlots s u) : FillsSlots s t := by
  cases h
  exact hu

/-! A check that fails raises its event; one that passes leaves the rest of the intent (R119). -/

theorem of_gated {k : State → Result} (h : gated s k = .next t) (hk : k s = .next t → FillsSlots s t) :
    FillsSlots s t := by
  rcases gated_cases h with ⟨-, h⟩ | ⟨-, rfl⟩
  · exact hk h
  · exact raise _ s

theorem of_withZone {zone : Byte} {k : Zone → State → Result} (h : withZone zone s k = .next t)
    (hk : ∀ z, k z s = .next t → FillsSlots s t) : FillsSlots s t := by
  rcases withZone_cases h with ⟨z, -, h⟩ | ⟨-, rfl⟩
  · exact hk z h
  · exact raise _ s

theorem of_withDomain {ok : Bool} {k : State → Result} (h : withDomain ok s k = .next t)
    (hk : k s = .next t → FillsSlots s t) : FillsSlots s t := by
  rcases withDomain_cases h with ⟨-, h⟩ | ⟨-, rfl⟩
  · exact hk h
  · exact raise _ s

theorem of_withContext {α : Type} {v : Option α} {k : α → State → Result} (h : withContext v s k = .next t)
    (hk : ∀ x, k x s = .next t → FillsSlots s t) : FillsSlots s t := by
  rcases withContext_cases h with ⟨x, -, h⟩ | ⟨-, rfl⟩
  · exact hk x h
  · exact raise _ s

/-- With or without the shift of the master setpoint (R130). -/
theorem of_zoneSetpoint {zone : Byte} {d : Half} {adj : Bool} (h : execSetZoneSetpointTemperature zone d adj s = .next t) :
    FillsSlots s t := by
  unfold execSetZoneSetpointTemperature at h
  refine of_gated h fun h => of_withZone h fun z h => ?_
  dsimp only at h
  split at h
  · exact of_next h rfl
  · exact of_withContext h fun b h => of_next h rfl

end FillsSlots

/-- Settles O35: past its checks, each intent writes a slot or the desired setpoint. -/
theorem intentsOnlyFillSlots : Obligations.IntentsOnlyFillSlots := by
  intro on adj a b d s t i hi h
  change FillsSlots s t
  simp only [List.mem_cons, List.not_mem_nil, or_false] at hi
  rcases hi with rfl | rfl | rfl | rfl | rfl | rfl | rfl | rfl
  · rw [exec_setSystemOn, execSetSystemOn] at h
    exact .of_gated h fun h => .of_withContext h fun m h => .of_next h rfl
  · rw [exec_setOperatingMode, execSetOperatingMode] at h
    exact .of_gated h fun h => .of_withDomain h fun h => .of_next h rfl
  · rw [exec_setFanSpeed, execSetFanSpeed] at h
    exact .of_gated h fun h => .of_withDomain h fun h => .of_withContext h fun c h => .of_next h rfl
  · rw [exec_setFanSpeedAbsolute, execSetFanSpeedAbsolute] at h
    exact .of_gated h fun h => .of_withDomain h fun h => .of_next h rfl
  · rw [exec_setContinuousFanMode, execSetContinuousFanMode] at h
    exact .of_gated h fun h => .of_withDomain h fun h => .of_withContext h fun v h => .of_next h rfl
  · rw [exec_setMasterSetpoint, execSetMasterSetpoint] at h
    exact .of_gated h fun h => .of_next h rfl
  · rw [exec_setZoneOn, execSetZoneOn] at h
    exact .of_gated h fun h => .of_withZone h fun z h => .of_withContext h fun m h => .of_next h rfl
  · exact .of_zoneSetpoint h

end Sys2Proof.Machine

/-! ### The host writes that liveness does not gate -/

namespace Sys2Proof.Machine

/-- Giving a zone up cancels the response it owes, and taking it leaves what it owes (R132). -/
theorem cancelOwed_eq (v : Zones Bool) (z : Zone) (en : Bool) :
    (if en then v else v.set z false) = v.set z (v.get z && en) := by
  cases en
  · rw [Bool.and_false, if_neg Bool.false_ne_true]
  · rw [Bool.and_true, Zones.set_get, if_pos rfl]

/-- Settles O36: the zone check, and then the write. -/
theorem emulationWritesApply : Obligations.EmulationWritesApply := by
  refine ⟨fun z d en f s => ⟨?_, ?_, ?_⟩, fun zone d en f s hout i hi => ?_⟩
  · rw [exec_setZoneCurrentTemperature, execSetZoneCurrentTemperature, withZone_number]
  · rw [exec_setControlZone, execSetControlZone, withZone_number, cancelOwed_eq]
  · rw [exec_sendZoneMasterOverride, execSendZoneMasterOverride, withZone_number]
    rfl
  · simp only [List.mem_cons, List.not_mem_nil, or_false] at hi
    rcases hi with rfl | rfl | rfl
    · rw [exec_setZoneCurrentTemperature, execSetZoneCurrentTemperature, withZone_outside hout]
    · rw [exec_setControlZone, execSetControlZone, withZone_outside hout]
    · rw [exec_sendZoneMasterOverride, execSendZoneMasterOverride, withZone_outside hout]

end Sys2Proof.Machine

/-! ### The accessors -/

namespace Sys2Proof.Machine

theorem readingOf_eq {α : Type} (zero : α) (v : Option α) : readingOf zero v = ⟨v.isSome, v.getD zero⟩ := by
  cases v <;> rfl

/-- The chosen message: a StateMessage if one is latched, else a StateMessage2, else none (R121). -/
theorem srcFields_eq {s : State} {f : StateFields}
    (hsm : s.latches.sm.valid = true → f = stateDecode s.params .stateMessage s.latches.sm.value)
    (hsm2 : s.latches.sm.valid = false → s.latches.sm2.valid = true →
      f = stateDecode s.params .stateMessage2 s.latches.sm2.value)
    (hnone : s.latches.sm.valid = false → s.latches.sm2.valid = false → f = StateFields.absent) : srcFields s = f := by
  unfold srcFields
  split_ifs with h h2
  · exact (hsm h).symm
  · exact (hsm2 (Bool.not_eq_true _ ▸ h) h2).symm
  · exact (hnone (Bool.not_eq_true _ ▸ h) (Bool.not_eq_true _ ▸ h2)).symm

/-- Settles O40: each accessor reads the fields of the chosen message. -/
theorem accessorsAnswer : Obligations.AccessorsAnswer := by
  intro s f hsm hsm2 hnone
  obtain rfl := srcFields_eq hsm hsm2 hnone
  refine ⟨rfl, ?_, ?_, ?_, ?_, rfl⟩
  · simp only [exec_getOperatingMode, execGetOperatingMode, readingOf_eq, answer]
  · simp only [exec_getFanMode, execGetFanMode, readingOf_eq, answer]
  · simp only [exec_getMaster, execGetMaster, readingOf_eq, answer]
  · simp only [exec_getCompressor, execGetCompressor, readingOf_eq, answer]

theorem execGetZone_number (z : Zone) (s : State) :
    execGetZone (BitVec.ofNat 8 z.number) s = .next (answer (zoneReadings z s) s) := by
  rw [execGetZone, Zone.toNat_number8, Zone.ofNat?_number]

theorem execGetZone_outside {zone : Byte} (h : zone.toNat < 1 ∨ 8 < zone.toNat) (s : State) :
    execGetZone zone s = .next (answer zoneReadingsInvalid (raiseEvent .intentZoneRange s)) := by
  rw [execGetZone, Zone.ofNat?_eq_none.mpr h]

/-- A reading of a latch is valid when the latch is (R140). -/
theorem readingOf_latchValue {α β : Type} (zero : β) (part : α → β) (l : Latch α) :
    readingOf zero ((latchValue l).map part) = if l.valid = true then ⟨true, part l.value⟩ else ⟨false, zero⟩ := by
  unfold latchValue
  split <;> rfl

/-- Whether a zone is on, read off the bitmap if one is known (R140). -/
theorem readingOf_bitmap (m : Option Byte) (z : Zone) :
    readingOf false (m.map fun m => bitmapZone m z) = ⟨m.isSome, (m.getD 0).getLsbD (z.number - 1)⟩ := by
  cases m
  · simp [readingOf]
  · rfl

/-- Settles O41: the zone's readings, from the chosen message and its master latch. -/
theorem getZoneAnswers : Obligations.GetZoneAnswers := by
  refine ⟨fun z s => ?_, fun zone s hout => ?_⟩
  · rw [exec_getZone, execGetZone_number, zoneReadings, readingOf_bitmap, readingOf_latchValue, readingOf_latchValue,
      readingOf_eq]
    rfl
  · rw [exec_getZone, execGetZone_outside hout]
    rfl

/-- As many elements pass a test as their flags sum to. -/
theorem length_filter_eq_sum_toNat {α : Type} (p : α → Bool) (l : List α) :
    (l.filter p).length = (l.map fun a => (p a).toNat).sum := by
  induction l with
  | nil => rfl
  | cons a l ih => cases h : p a <;> simp [h, ih, Nat.add_comm]

/-- The pending slots, counted flag by flag (R24, R143). -/
theorem pendingSlots_eq (s : State) : pendingSlots s =
    s.slots.opMode.pending.toNat + s.slots.zoneState.pending.toNat + s.slots.fanMode.pending.toNat
      + s.slots.masterSp.pending.toNat + s.slots.customSp.pending.toNat
      + (Zone.all.map (fun z => (s.slots.mtz.get z).pending.toNat)).sum := by
  simp only [pendingSlots, length_filter_eq_sum_toNat, slotOrder, List.map_append, List.sum_append, List.map_map,
    Function.comp_def, List.map_cons, List.map_nil, List.sum_cons, List.sum_nil, slotPending, Nat.add_zero, Nat.add_assoc]

theorem pendingSlots_le (s : State) : pendingSlots s ≤ 13 := List.length_filter_le _ slotOrder

/-- Settles O42: the count of thirteen slots fits its byte. -/
theorem pendingCountCounts : Obligations.PendingCountCounts := by
  intro s
  have hle := pendingSlots_le s
  have hcount : (BitVec.ofNat 8 (pendingSlots s)).toNat = pendingSlots s := by
    rw [BitVec.toNat_ofNat, Nat.mod_eq_of_lt (by omega)]
  exact ⟨BitVec.ofNat 8 (pendingSlots s), exec_pendingCount s, hcount.trans (pendingSlots_eq s), hcount.trans_le hle⟩

end Sys2Proof.Machine

/-! ### Raising an event -/

namespace Sys2Proof.Machine

/-- Every event has a bit of STATUS (R29, R149). -/
theorem eventCode_lt (k : EventCode) : eventCode k < 16 := by cases k <;> decide

/-- The mask of an event is its one bit of STATUS (R149). -/
theorem eventMask_getLsbD (k : EventCode) (n : Nat) :
    (1#16 <<< eventCode k).getLsbD n = decide (n = eventCode k) := by
  rw [← BitVec.twoPow_eq, BitVec.getLsbD_twoPow, decide_eq_true (eventCode_lt k), Bool.true_and]
  exact decide_eq_decide.mpr eq_comm

theorem raiseEvent_status_getLsbD (k : EventCode) (s : State) (n : Nat) :
    (raiseEvent k s).regs.status.getLsbD n = (s.regs.status.getLsbD n || decide (n = eventCode k)) := by
  rw [raiseEvent_status, BitVec.getLsbD_or, eventMask_getLsbD]

/-- A raise counts on the counter of its event and on no other (R29, R150). -/
theorem counterOf_countEvent (c : Counters) (k k' : EventCode) :
    counterOf (countEvent c k) k' = if k' = k then counterOf c k' + 1 else counterOf c k' := by
  cases k <;> cases k' <;> rfl

/-- Settles O16: the mask of the event is its own bit, and the counter counted is its own. -/
theorem raiseSetsBitAndCounts : Obligations.RaiseSetsBitAndCounts := by
  refine ⟨⟨rfl, rfl, rfl, rfl, rfl, rfl, rfl, rfl, rfl, rfl, rfl⟩, fun k k' s => ?_⟩
  refine ⟨?bit, ?otherBits, ?counter, ?otherCounter, rfl⟩
  case bit => rw [raiseEvent_status_getLsbD, decide_eq_true rfl, Bool.or_true]
  case otherBits =>
    intro n hn
    rw [raiseEvent_status_getLsbD, decide_eq_false hn, Bool.or_false]
  case counter => rw [raiseEvent_cnt, counterOf_countEvent, if_pos rfl]
  case otherCounter =>
    intro hne
    rw [raiseEvent_cnt, counterOf_countEvent, if_neg hne]

end Sys2Proof.Machine

/-! ### Every event goes on -/

namespace Sys2Proof.Machine

variable {s mid : State}

/-- The framer's part empties the buffer or leaves it, so a fill level within the capacity stays there (R61, R65). -/
theorem closeIfSilent_len_le (hcap : s.framer.len ≤ s.params.frameCap) (h : closeIfSilent s = .next mid) :
    mid.framer.len ≤ mid.params.frameCap := by
  obtain ⟨hparams, -⟩ := closeIfSilent_keeps h
  obtain ⟨-, -, hlen⟩ := closeIfSilent_framer hcap h
  rw [hparams, hlen]
  exact (nextAddress_le s s.now).trans hcap

/-- A byte overflows a full buffer and is stored in any other, so no address past the capacity is used (R35, R63, R66). -/
theorem storeByte_runs (b : Byte) (hcap : s.framer.len ≤ s.params.frameCap) : Runs (storeByte b s) := by
  rcases Nat.eq_or_lt_of_le hcap with hfull | hroom
  · exact ⟨_, storeByte_full b hfull⟩
  · exact ⟨_, storeByte_room b hroom⟩

theorem rxByte_runs (time : Word) (b : Byte) (hcap : s.framer.len ≤ s.params.frameCap) : Runs (rxByte time b s) := by
  obtain ⟨mid, hmid⟩ := closeIfSilent_runs (s := { s with now := time }) hcap
  have hmidCap := closeIfSilent_len_le (s := { s with now := time }) hcap hmid
  rw [rxByte, hmid, andThen_next]
  exact storeByte_runs (s := noteByte mid) b hmidCap

theorem tick_runs (time : Word) (hcap : s.framer.len ≤ s.params.frameCap) : Runs (tick time s) := by
  obtain ⟨mid, hmid⟩ := closeIfSilent_runs (s := { s with now := time }) hcap
  rw [tick, hmid, andThen_next]
  exact .next _

/-- Only a byte and a tick use the frame buffer; a host operation is an instruction, and the other events always go on (R15). -/
theorem applyEvent_runs (e : Event) (hcap : s.framer.len ≤ s.params.frameCap) : Runs (applyEvent e s) := by
  cases e with
  | rxByte time b => exact rxByte_runs time b hcap
  | tick time => exact tick_runs time hcap
  | txComplete time => exact .next _
  | host time sel args => exact exec_runs (decodeHost sel args) { s with now := time }
  | reset => exact .next _

/-- Settles O59: a step waits or applies the next event, which goes on, as every instruction does. -/
theorem nothingStopsTheMachine : Obligations.NothingStopsTheMachine := by
  refine ⟨fun s hcap => ?_, exec_runs⟩
  cases hi : s.inputs with
  | nil => exact ⟨s, step_idle hi⟩
  | cons e rest =>
    rw [step_event hi]
    exact applyEvent_runs (s := { s with inputs := rest, out := ⟨false, .none⟩ }) e hcap

end Sys2Proof.Machine

/-! ### Reset -/

namespace Sys2Proof.Machine

/-! #### A timer that was never started -/

/-- No byte received, no quiet bus (R22, R106). -/
theorem quiet_of_unseen {s : State} (h : s.timing.rxSeen = false) : quiet s = false := by
  simp [quiet, h]

/-- No peer frame seen, no liveness (R22, R111). -/
theorem receivingData_of_unseen {s : State} (h : s.timing.frameSeen = false) : receivingData s = false := by
  simp [receivingData, h]

/-- No command and no data sent, no debounce (R22, R112). -/
theorem debounceActive_of_unseen {s : State} (hcmd : s.timing.cmdSeen = false) (hdata : s.timing.dataSeen = false) :
    debounceActive s = false := by
  simp [debounceActive, hcmd, hdata]

/-! #### The state after a reset -/

theorem counterOf_countersZero (k : EventCode) : counterOf countersZero k = 0 := by cases k <;> rfl

/-- A step that takes a reset ends in the reset state under the same parameters, before the same events (R160). -/
theorem step_reset {s : State} {rest : List Event} (h : s.inputs = .reset :: rest) :
    step s = .next { State.resetWith s.params with inputs := rest } := by
  rw [step_event h]
  rfl

/-- No slot is pending after a reset (R24, R160). -/
theorem highestPending_resetWith (p : Params) (inputs : List Event) :
    highestPending { State.resetWith p with inputs := inputs } = none := by
  refine highestPending_eq_none.mpr fun k => ?_
  cases k with
  | mtz z => exact congrArg Slot.pending (Zones.get_const _ z)
  | _ => rfl

/-- Settles O55: the step ends in `State.resetWith`, whose groups hold their values by definition, the zone arrays zone by zone;
the flags it clears are what each predicate needs first. -/
theorem resetSetsEveryElement : Obligations.ResetSetsEveryElement := by
  intro s rest h
  refine ⟨{ State.resetWith s.params with inputs := rest }, step_reset h, rfl, rfl, rfl, rfl,
    fun a => ⟨rfl, rfl⟩, rfl, rfl, ⟨rfl, rfl, rfl, rfl, rfl, fun z => Zones.get_const _ z⟩, ?zones, rfl, rfl,
    rfl, counterOf_countersZero, rfl, rfl,
    receivingData_of_unseen rfl, debounceActive_of_unseen rfl rfl, quiet_of_unseen rfl, highestPending_resetWith s.params rest⟩
  case zones =>
    intro z
    simp only [State.resetWith, Zones.get_const, and_self]

/-- The reference parameters are in their ranges (R44; assumption 1). -/
theorem Params.reference_valid : Params.reference.valid = true := by decide

/-- Settles O57: the reset state meets the invariant before any events, so also before none. -/
theorem resetMeetsTheInvariant : Obligations.ResetMeetsTheInvariant :=
  ⟨fun _ hp => Inv.resetWith hp [], Inv.resetWith Params.reference_valid []⟩

end Sys2Proof.Machine
